-- ==== Sys2Proof/Machine/Segments.lean ====
section
/-! DEFINITION. The nine pulse-shape segments and their levels (spec/30_encoding.md R94). The segment set is fixed by the
spec and is no parameter (spec/00_scope.md R8). -/

namespace Sys2Proof.Machine

/-- A pulse-shape segment (R28, R94). Codes 9 to 15 are never written and are not representable
(assumption 9). -/
inductive Seg where
  | z
  | p
  | m
  | zp
  | pz
  | zm
  | mz
  | pm
  | mp
deriving DecidableEq, Repr

/-- Start level of a segment, in units of AMP (R94). -/
def segStart : Seg → Int
  | .z => 0
  | .p => 1
  | .m => -1
  | .zp => 0
  | .pz => 1
  | .zm => 0
  | .mz => -1
  | .pm => 1
  | .mp => -1

/-- End level of a segment, in units of AMP (R94). -/
def segEnd : Seg → Int
  | .z => 0
  | .p => 1
  | .m => -1
  | .zp => 1
  | .pz => 0
  | .zm => -1
  | .mz => 0
  | .pm => -1
  | .mp => 1

end Sys2Proof.Machine
end

