-- ==== Sys2Proof/Word.lean ====
section
/-! DEFINITION. The words that cross the operation port and the queue, all of fixed width (spec/30_encoding.md R80, R84,
R86). Bit 0 is the least significant bit of every word (spec/00_scope.md R10). -/

namespace Sys2Proof

/-- One byte: a character value, a queue slot, the operand field `d` of an operation word (R21, R80). -/
abbrev Byte := BitVec 8

/-- One operation word, 12 bits (R80). -/
abbrev OpWord := BitVec 12

/-- The code of one symbol, 2 bits (R86). -/
abbrev SymCode := BitVec 2

/-- One response word, 32 bits (R84). -/
abbrev Response := BitVec 32

end Sys2Proof
end

