-- ==== Sys2Proof/Config.lean ====
section
/-! DEFINITION. The configuration of the block (spec/00_scope.md R8, spec/10_state.md R38): a record with one field for each
parameter, the constraints the spec puts on it, and the values this hardware takes. The model is written over any
configuration that meets the constraints; the hardware is one of them (`Sys2Proof.Machine.Hardware`). -/

namespace Sys2Proof.Config

/-! ### The values of this hardware

"Default is the value this hardware takes" (R8): a parameter with a fixed default is that number here. The two that the spec
leaves OPEN (IDLE_CHAR, decision D13, and the varicode table, decision D25) are opaque constants, so that no proof can use a
value of theirs. The default of SHAPE is in `Sys2Proof.Machine.Hardware`. -/

/-- SYMLEN: sample ticks per symbol, length of one shape segment (R8). -/
abbrev symlen : Nat := 256

/-- SRW: width of SHIFT and of a varicode ROM word (R8, R24, R87). -/
abbrev srw : Nat := 20

/-- QCAP: byte slots of the character queue (R8, R21). -/
abbrev qcap : Nat := 26

/-- SAMPW: width of one sample (R8, R93). -/
abbrev sampw : Nat := 16

/-- AMP: the steady-carrier level of one channel (R8, R93). -/
abbrev amp : Nat := 16384

/-- BIAS: the fixed bias of the physical shape-ROM offset (R8, R63). No value read depends on it. -/
abbrev bias : Nat := 0

/-- OVRW: width of OVRCNT, "fixed at 16 by the STATUS layout" (R8, R35). -/
abbrev ovrw : Nat := 16

/-- FS: nominal sample-tick rate in hertz. Informative, no rule depends on it (R8, R230). -/
abbrev fs : Nat := 8000

/-- A word of the varicode ROM and the contents of SHIFT. -/
abbrev CodeWord := BitVec srw

/-- One sample, two's complement (R93). -/
abbrev Sample := BitVec sampw

/-- IDLE_CHAR: the byte the character source supplies when the queue is empty (R8, R114). OPEN by decision D13, hence a
free value: nothing here fixes it. Assumption 4. -/
opaque idleChar : Byte

/-- The code the table designer gives a character value, or none where there is no code of its own (R90). The contents of
the varicode table are OPEN by decision D25, hence a free value: nothing here fixes it. Assumption 3. -/
opaque ownCode : Byte → Option CodeWord

/-- FALLBACK_CODE: the ROM word stored at every character value without a code of its own; its default is the one-bit
code `1` (R8, R90). -/
abbrev fallbackCode : CodeWord := 0x80000#20

/-! ### Any configuration -/

/-- The parameters, every row of the table of R8. The widths of the ROM words and of IDLE_CHAR are in the types. -/
structure Params where
  /-- SYMLEN -/
  symlen : Nat
  /-- SRW -/
  srw : Nat
  /-- QCAP -/
  qcap : Nat
  /-- SAMPW -/
  sampw : Nat
  /-- AMP -/
  amp : Nat
  /-- BIAS -/
  bias : Nat
  /-- IDLE_CHAR -/
  idleChar : Byte
  /-- FALLBACK_CODE -/
  fallbackCode : BitVec srw
  /-- VARICODE as its designer gives it: the word of each character value, none where there is no code of its own and the
  ROM holds FALLBACK_CODE (R90). Any 256 words are such a table. -/
  varicode : Byte → Option (BitVec srw)
  /-- SHAPE: sample k of a segment, a signed integer (R93, R94); read at 0 ≤ k < SYMLEN only. -/
  shape : Machine.Seg → Nat → Int
  /-- OVRW -/
  ovrw : Nat
  /-- FS; nothing reads it. -/
  fs : Nat

/-- The constraints of R8, and R94 and R95 for SHAPE. A set of parameters that breaks one is not an instance of the block,
"and no rule says what it does" (R212). -/
structure Params.Legal (p : Params) : Prop where
  symlen_ge : 2 ≤ p.symlen
  srw_ge : 1 ≤ p.srw
  qcap_ge : 1 ≤ p.qcap
  qcap_le : p.qcap ≤ 31
  sampw_ge : 2 ≤ p.sampw
  sampw_le : p.sampw ≤ 16
  amp_pos : 0 < p.amp
  amp_le : p.amp ≤ 2 ^ (p.sampw - 1) - 1
  ovrw_eq : p.ovrw = 16
  /-- SHAPE[s][0] = AMP * start(s) (R94). -/
  shape_first : ∀ g, p.shape g 0 = p.amp * Machine.segStart g
  /-- SHAPE[s][SYMLEN-1] = AMP * end(s) (R94). -/
  shape_last : ∀ g, p.shape g (p.symlen - 1) = p.amp * Machine.segEnd g
  /-- Z, P and M, the segments whose two levels agree, are constant (R95). -/
  shape_steady : ∀ g, Machine.segStart g = Machine.segEnd g → ∀ k < p.symlen, p.shape g k = p.amp * Machine.segStart g
  /-- Every sample is in range (R95). -/
  shape_range : ∀ g, ∀ k < p.symlen, -(p.amp : Int) ≤ p.shape g k ∧ p.shape g k ≤ p.amp

end Sys2Proof.Config

namespace Sys2Proof

/-- A configuration: parameters that meet their constraints. Parameters that do not are refused by having none
(spec/93_implementation_defined.md item 8). -/
structure Configuration where
  params : Config.Params
  legal : params.Legal

namespace Configuration

variable (c : Configuration)

abbrev symlen : Nat := c.params.symlen

abbrev srw : Nat := c.params.srw

abbrev qcap : Nat := c.params.qcap

abbrev sampw : Nat := c.params.sampw

abbrev amp : Nat := c.params.amp

abbrev bias : Nat := c.params.bias

/-- IDLE_CHAR. -/
abbrev idleChar : Byte := c.params.idleChar

theorem symlen_pos : 0 < c.symlen := Nat.lt_of_lt_of_le (by decide) c.legal.symlen_ge

theorem qcap_pos : 0 < c.qcap := c.legal.qcap_ge

/-- VARICODE[b], the word the ROM holds (R62, R90). -/
def code (b : Byte) : BitVec c.srw :=
  match c.params.varicode b with
  | some e => e
  | none => c.params.fallbackCode

/-- SHAPE[s][k], as the sample it is (R11, R93, R94). -/
def sample (g : Machine.Seg) (k : Fin c.symlen) : BitVec c.sampw := BitVec.ofInt c.sampw (c.params.shape g k.val)

end Configuration

end Sys2Proof
end

