-- ==== Sys2Proof/Syntax.lean ====
section
/-! DEFINITION. What the block can be told to do: the six operations of the operation port and the four symbols, one
constructor for each row of spec/opcode_table.json (spec/00_scope.md R4, spec/30_encoding.md R80, R86), and the forms in
which they come: operation words, symbol codes, the reset event, and the lines of the assembler syntax. -/

namespace Sys2Proof

/-- The "instructions" of this hardware (R4): the operations of the port and the symbols the encoder hands to the
phase/shape state machine. A reserved operation word is none of them (R83): it has a whole effect of its own, R176. -/
inductive Instr where
  /-- TICK: emit one sample pair and advance (R150). -/
  | tick
  /-- PUSH b: append a character to the queue, or reject it (R170, R171). -/
  | push (b : Byte)
  /-- TXSTART: ask for the carrier to be keyed on (R172). -/
  | txstart
  /-- TXSTOP: ask for the carrier to be keyed off (R173). -/
  | txstop
  /-- RDSTAT: read the status word (R174). -/
  | rdstat
  /-- TICKOVR: report a missed sample tick (R175). -/
  | tickovr
  /-- NOCHG, `NoPhaseChange` (R135). -/
  | nochg
  /-- REV180, `PhaseReverse180` (R136). -/
  | rev180
  /-- COFF, `CarrierOff` (R137). -/
  | coff
  /-- CON, `CarrierOn` (R138). -/
  | con
deriving DecidableEq, Repr

/-- A symbol: what the encoder produces once per symbol period and the phase/shape machine consumes (R86). -/
inductive Symbol where
  | nochg
  | rev180
  | coff
  | con
deriving DecidableEq, Repr

/-- The word of an instruction. A `cmd` word is an operation word (format CMD, R80). A `sym` word is the code of a symbol
(format SYM, R86), which "never crosses the block boundary": NEXTSYM produces it and RESOLVE consumes it inside one TICK. -/
inductive InstrWord where
  | cmd (w : OpWord)
  | sym (y : SymCode)
deriving DecidableEq, Repr

/-- What the environment does to the block: present an operation word at the port, or raise the reset input (R9, R13, R210).
"No agent can touch the block's state in any other way" (R233): a symbol is no input. -/
inductive Input where
  | word (w : OpWord)
  | reset
deriving DecidableEq, Repr

/-- One line of the assembler syntax of R98 and of the pseudo-operations of R99. -/
inductive AsmLine where
  /-- One of the six operations. -/
  | op (i : Instr)
  /-- `.word w` -/
  | dotWord (w : OpWord)
  /-- `PUSHS "text"` -/
  | pushs (text : List Byte)
  /-- `TICKS n` -/
  | ticks (n : Nat)
  /-- `SYMS n` -/
  | syms (n : Nat)
  /-- `RESET` -/
  | reset
deriving DecidableEq, Repr

end Sys2Proof
end

