-- ==== Sys2Proof/WellFormed.lean ====
section
/-! DEFINITION. The checks the spec puts on words, codes and parameters. An `Instr` needs no check: its only operand is
the byte of PUSH, "used whole, unsigned, unshifted and unscaled" (R82), so every value of the type is an operation or a
symbol, and `Instr.wellFormed` says so. What can be ill-formed is a WORD (a reserved operation word, R83), a varicode CODE
(R89) and a set of PARAMETERS (R8; spec/93_implementation_defined.md item 8): the last check is `Config.Params.Legal`, which
every `Configuration` carries. -/

namespace Sys2Proof

/-- One row of the table of R81: the word matches when it agrees with `mtch` under `mask`. -/
structure CmdRow where
  mnemonic : String
  mtch : OpWord
  mask : OpWord
deriving DecidableEq, Repr

/-- The table of R81. -/
def cmdRows : List CmdRow :=
  [ ⟨"TICK", 0x100#12, 0xFFF#12⟩,
    ⟨"PUSH", 0x200#12, 0xF00#12⟩,
    ⟨"TXSTART", 0x300#12, 0xFFF#12⟩,
    ⟨"TXSTOP", 0x400#12, 0xFFF#12⟩,
    ⟨"RDSTAT", 0x500#12, 0xFFF#12⟩,
    ⟨"TICKOVR", 0x600#12, 0xFFF#12⟩ ]

/-- A word matches a row of the table under the row's mask (R81). -/
def CmdRow.fits (r : CmdRow) (w : OpWord) : Bool := w &&& r.mask == r.mtch

/-- A word is assigned when it matches a row of the table, and reserved otherwise (R81, R83). -/
def assigned (w : OpWord) : Bool := cmdRows.any fun r => r.fits w

/-- A word that stands for an instruction: every symbol code is assigned (R86), an operation word may be reserved. -/
def InstrWord.wellFormed : InstrWord → Bool
  | .cmd w => assigned w
  | .sym _ => true

/-- Every instruction is well-formed: no operand value is excluded (R82, R86). -/
def Instr.wellFormed : Instr → Bool
  | .tick | .push _ | .txstart | .txstop | .rdstat | .tickovr => true
  | .nochg | .rev180 | .coff | .con => true

/-- No two adjacent 0 bits. -/
def noAdjacentZeros : List Bool → Bool
  | a :: b :: r => (a || b) && noAdjacentZeros (b :: r)
  | _ => true

/-- A code is well-formed when it is empty, or begins with 1, ends with 1 and has no two adjacent 0 bits (R89). The block
does not check it. -/
def codeWellFormed (bits : List Bool) : Bool :=
  bits.isEmpty || (bits.head? == some true && bits.getLast? == some true && noAdjacentZeros bits)

end Sys2Proof
end

