-- ==== Sys2Proof/Decode.lean ====
section
/-! DEFINITION. The decoder and the encoder of instruction words (spec/30_encoding.md R80 to R86, R101), the varicode ROM word
read as a code (R87, R88), and the expansion of assembler lines (R98, R99). Decoding never depends on the state of the
block (R100). -/

namespace Sys2Proof

/-- What a word is: an instruction, or a reserved operation word, rejected under that name (R83). -/
inductive Decoded where
  | instr (i : Instr)
  | reserved (w : OpWord)
deriving DecidableEq, Repr

/-- Field `op`, bits 11:8 (R80). -/
def opField (w : OpWord) : BitVec 4 := w.extractLsb' 8 4

/-- Field `d`, bits 7:0 (R80). -/
def dField (w : OpWord) : Byte := w.extractLsb' 0 8

/-- The decoder of operation words, total on all 4096 of them (R101). -/
def decodeCmd (w : OpWord) : Decoded :=
  if opField w = 0x2#4 then .instr (.push (dField w))
  else if dField w = 0#8 then
    if opField w = 0x1#4 then .instr .tick
    else if opField w = 0x3#4 then .instr .txstart
    else if opField w = 0x4#4 then .instr .txstop
    else if opField w = 0x5#4 then .instr .rdstat
    else if opField w = 0x6#4 then .instr .tickovr
    else .reserved w
  else .reserved w

/-- The four symbol codes, all assigned (R86). -/
def symbolOfCode (y : SymCode) : Symbol :=
  if y = 0b00#2 then .nochg
  else if y = 0b01#2 then .rev180
  else if y = 0b10#2 then .coff
  else .con

/-- The row of the opcode table of a symbol (R135 to R138). -/
def symbolInstr : Symbol → Instr
  | .nochg => .nochg
  | .rev180 => .rev180
  | .coff => .coff
  | .con => .con

/-- The decoder of symbol codes (R86). -/
def decodeSym (y : SymCode) : Instr := symbolInstr (symbolOfCode y)

/-- The decoder. -/
def decode : InstrWord → Decoded
  | .cmd w => decodeCmd w
  | .sym y => .instr (decodeSym y)

/-- The word of an instruction, from the tables of R81 and R86. -/
def encode : Instr → InstrWord
  | .tick => .cmd 0x100#12
  | .push b => .cmd (0x2#4 ++ b)
  | .txstart => .cmd 0x300#12
  | .txstop => .cmd 0x400#12
  | .rdstat => .cmd 0x500#12
  | .tickovr => .cmd 0x600#12
  | .nochg => .sym 0b00#2
  | .rev180 => .sym 0b01#2
  | .coff => .sym 0b10#2
  | .con => .sym 0b11#2

/-- The numeric code of a symbol, which is the row index of TRANS (R86). -/
def symbolCode : Symbol → SymCode
  | .nochg => 0b00#2
  | .rev180 => 0b01#2
  | .coff => 0b10#2
  | .con => 0b11#2

/-- The word that the bits of a row of spec/opcode_table.json are: rows of format CMD have 12 bits (two whole bytes), rows
of format SYM have 2 (one whole byte). A number that does not fit the row's width is no word (assumption 10). -/
def instrWordOfBits (nbits w : Nat) : Option InstrWord :=
  if nbits = 16 ∨ nbits = 12 then
    if w < 2 ^ 12 then some (.cmd (BitVec.ofNat 12 w)) else none
  else if nbits = 8 ∨ nbits = 2 then
    if w < 2 ^ 2 then some (.sym (BitVec.ofNat 2 w)) else none
  else none

/-- The instruction the decoder reads from the bits of a row of spec/opcode_table.json. -/
def decodeTableWord (nbits w : Nat) : Option Instr :=
  match instrWordOfBits nbits w with
  | some p =>
    match decode p with
    | .instr i => some i
    | .reserved _ => none
  | none => none

/-- ctz(e): the number of zero bits below the lowest 1 bit of `e` (R87). -/
def codeTrailingZeros {w : Nat} (e : BitVec w) : Nat :=
  (List.range w).findIdx fun i => e.getLsbD i

/-- width(e): the number of bits of the code held in a ROM word (R87). -/
def codeWidth {w : Nat} (e : BitVec w) : Nat :=
  if e = 0#w then 0 else w - codeTrailingZeros e

/-- The bits of the code held in a ROM word, in transmission order: e[SRW-1], e[SRW-2], … (R87, R88). -/
def codeBits {w : Nat} (e : BitVec w) : List Bool :=
  (List.range (codeWidth e)).map fun j => e.getMsbD j

/-- The symbol of one code bit: 1 is NOCHG, 0 is REV180 (R88). -/
def symbolOfBit (b : Bool) : Symbol := if b then .nochg else .rev180

/-- The inputs a line of assembler stands for (R98, R99). A symbol has no line: it is not written, NEXTSYM produces it. -/
def assembleLine (symlen : Nat) : AsmLine → List Input
  | .op i =>
    match encode i with
    | .cmd w => [.word w]
    | .sym _ => []
  | .dotWord w => [.word w]
  | .pushs text => text.map fun b => .word (0x2#4 ++ b)
  | .ticks n => List.replicate n (.word 0x100#12)
  | .syms n => List.replicate (n * symlen) (.word 0x100#12)
  | .reset => [.reset]

/-- The inputs a sequence of lines stands for. -/
def assemble (symlen : Nat) (lines : List AsmLine) : List Input := lines.flatMap (assembleLine symlen)

end Sys2Proof
end

