-- ==== Sys2Proof/Machine/Hardware.lean ====
section
/-! DEFINITION. This hardware as one configuration: the default instance of SHAPE (spec/30_encoding.md R97) and the record of
the parameters that it takes (spec/00_scope.md R8; assumption 6). -/

namespace Sys2Proof.Machine

/-- The list PM of R97. -/
def pmList : List Int :=
  [16384, 16383, 16379, 16373, 16364, 16353, 16339, 16323, 16304, 16283, 16260, 16234, 16205, 16174, 16141, 16105] ++
  [16067, 16026, 15983, 15937, 15889, 15839, 15786, 15731, 15673, 15613, 15551, 15486, 15419, 15349, 15278, 15204] ++
  [15127, 15048, 14968, 14884, 14799, 14711, 14621, 14529, 14435, 14338, 14239, 14138, 14035, 13930, 13823, 13713] ++
  [13602, 13488, 13373, 13255, 13135, 13014, 12890, 12764, 12637, 12508, 12376, 12243, 12108, 11971, 11832, 11692] ++
  [11550, 11405, 11260, 11112, 10963, 10812, 10660, 10506, 10350, 10193, 10034, 9874, 9712, 9548, 9384, 9218] ++
  [9050, 8881, 8711, 8539, 8366, 8192, 8017, 7840, 7662, 7483, 7303, 7122, 6939, 6756, 6572, 6386] ++
  [6200, 6013, 5824, 5635, 5445, 5255, 5063, 4871, 4677, 4484, 4289, 4094, 3898, 3702, 3505, 3308] ++
  [3110, 2911, 2712, 2513, 2314, 2114, 1913, 1713, 1512, 1311, 1109, 908, 706, 505, 303, 101] ++
  [-101, -303, -505, -706, -908, -1109, -1311, -1512, -1713, -1913, -2114, -2314, -2513, -2712, -2911, -3110] ++
  [-3308, -3505, -3702, -3898, -4094, -4289, -4484, -4677, -4871, -5063, -5255, -5445, -5635, -5824, -6013, -6200] ++
  [-6386, -6572, -6756, -6939, -7122, -7303, -7483, -7662, -7840, -8017, -8192, -8366, -8539, -8711, -8881, -9050] ++
  [-9218, -9384, -9548, -9712, -9874, -10034, -10193, -10350, -10506, -10660, -10812, -10963, -11112, -11260, -11405, -11550] ++
  [-11692, -11832, -11971, -12108, -12243, -12376, -12508, -12637, -12764, -12890, -13014, -13135, -13255, -13373, -13488, -13602] ++
  [-13713, -13823, -13930, -14035, -14138, -14239, -14338, -14435, -14529, -14621, -14711, -14799, -14884, -14968, -15048, -15127] ++
  [-15204, -15278, -15349, -15419, -15486, -15551, -15613, -15673, -15731, -15786, -15839, -15889, -15937, -15983, -16026, -16067] ++
  [-16105, -16141, -16174, -16205, -16234, -16260, -16283, -16304, -16323, -16339, -16353, -16364, -16373, -16379, -16383, -16384]

/-- The list PZ of R97. -/
def pzList : List Int :=
  [16384, 16383, 16382, 16378, 16374, 16368, 16362, 16354, 16344, 16334, 16322, 16309, 16295, 16279, 16262, 16245] ++
  [16225, 16205, 16183, 16161, 16137, 16111, 16085, 16057, 16029, 15999, 15967, 15935, 15901, 15867, 15831, 15794] ++
  [15756, 15716, 15676, 15634, 15591, 15548, 15503, 15456, 15409, 15361, 15312, 15261, 15210, 15157, 15103, 15049] ++
  [14993, 14936, 14878, 14819, 14760, 14699, 14637, 14574, 14510, 14446, 14380, 14313, 14246, 14178, 14108, 14038] ++
  [13967, 13895, 13822, 13748, 13674, 13598, 13522, 13445, 13367, 13288, 13209, 13129, 13048, 12966, 12884, 12801] ++
  [12717, 12633, 12547, 12462, 12375, 12288, 12200, 12112, 12023, 11934, 11843, 11753, 11662, 11570, 11478, 11385] ++
  [11292, 11198, 11104, 11010, 10915, 10819, 10723, 10627, 10531, 10434, 10337, 10239, 10141, 10043, 9945, 9846] ++
  [9747, 9648, 9548, 9449, 9349, 9249, 9149, 9048, 8948, 8847, 8747, 8646, 8545, 8444, 8343, 8242] ++
  [8142, 8041, 7940, 7839, 7738, 7637, 7537, 7436, 7336, 7235, 7135, 7035, 6935, 6836, 6736, 6637] ++
  [6538, 6439, 6341, 6243, 6145, 6047, 5950, 5853, 5757, 5661, 5565, 5469, 5374, 5280, 5186, 5092] ++
  [4999, 4906, 4814, 4722, 4631, 4541, 4450, 4361, 4272, 4184, 4096, 4009, 3922, 3837, 3751, 3667] ++
  [3583, 3500, 3418, 3336, 3255, 3175, 3096, 3017, 2939, 2862, 2786, 2710, 2636, 2562, 2489, 2417] ++
  [2346, 2276, 2206, 2138, 2071, 2004, 1938, 1874, 1810, 1747, 1685, 1624, 1565, 1506, 1448, 1391] ++
  [1335, 1281, 1227, 1174, 1123, 1072, 1023, 975, 928, 881, 836, 793, 750, 708, 668, 628] ++
  [590, 553, 517, 483, 449, 417, 385, 355, 327, 299, 273, 247, 223, 201, 179, 159] ++
  [139, 122, 105, 89, 75, 62, 50, 40, 30, 22, 16, 10, 6, 2, 1, 0]

/-- The default instance of SHAPE as integers: the two lists and the identities of R97, with 255 = SYMLEN - 1. -/
def shapeInt (s : Seg) (k : Nat) : Int :=
  match s with
  | .z => 0
  | .p => Config.amp
  | .m => -Config.amp
  | .pm => pmList.getD k 0
  | .mp => -pmList.getD k 0
  | .pz => pzList.getD k 0
  | .mz => -pzList.getD k 0
  | .zp => pzList.getD (Config.symlen - 1 - k) 0
  | .zm => -pzList.getD (Config.symlen - 1 - k) 0

/-- SHAPE[s][k] (R11, R93, R94). -/
def shape (s : Seg) (k : Fin Config.symlen) : Config.Sample := BitVec.ofInt Config.sampw (shapeInt s k.val)

/-- A level in units of AMP as a sample of this hardware (R93, R94). -/
def levelSample (v : Int) : Config.Sample := BitVec.ofInt Config.sampw (Config.amp * v)

end Sys2Proof.Machine

namespace Sys2Proof.Config

/-- The parameters of this hardware. -/
abbrev hardwareParams : Params where
  symlen := symlen
  srw := srw
  qcap := qcap
  sampw := sampw
  amp := amp
  bias := bias
  idleChar := idleChar
  fallbackCode := fallbackCode
  varicode := ownCode
  shape := Machine.shapeInt
  ovrw := ovrw
  fs := fs

/-- They meet the constraints of R8, R94 and R95, whatever the open values are. -/
theorem hardwareParams_legal : hardwareParams.Legal where
  symlen_ge := by decide
  srw_ge := by decide
  qcap_ge := by decide
  qcap_le := by decide
  sampw_ge := by decide
  sampw_le := by decide
  amp_pos := by decide
  amp_le := by decide
  ovrw_eq := rfl
  shape_first := by intro g; cases g <;> decide +kernel
  shape_last := by intro g; cases g <;> decide +kernel
  shape_steady := by intro g; cases g <;> decide +kernel
  shape_range := by intro g; cases g <;> decide +kernel

/-- This hardware. -/
abbrev hardware : Configuration where
  params := hardwareParams
  legal := hardwareParams_legal

end Sys2Proof.Config

namespace Sys2Proof.Machine

/-- VARICODE[b] of this hardware: the ROM word of a character value, FALLBACK_CODE where the table designer has no code
(R62, R90). -/
def varicode (b : Byte) : Config.CodeWord := Config.hardware.code b

end Sys2Proof.Machine
end

