-- ==== Sys2Proof/Machine/State.lean ====
section
/-! DEFINITION. The state of the block (spec/10_state.md R20): the seventeen items of the spec's table, and beside them
two fields that are the MODEL's own, the operation port's input side and output side (assumption 1). The widths and ranges are
those of the configuration, which is no part of the state (R38). -/

namespace Sys2Proof.Machine

/-- The keying state KEY (R26). The fourth 2-bit value is never written and is not representable (assumption 9). -/
inductive Key where
  | stopped
  | starting
  | running
deriving DecidableEq, Repr

/-- The phase state PHASE (R27). Codes 5 to 7 are never written and are not representable (assumption 9). -/
inductive Phase where
  | ph0
  | ph90
  | ph180
  | ph270
  | phoff
deriving DecidableEq, Repr

/-- The error conditions that an operation can raise (R190); the fourth of that rule's table, the unmapped character,
cannot be raised. -/
inductive ErrorCond where
  /-- QOVF: a PUSH while the queue was full. -/
  | queueOverrun
  /-- TOVR: the tick source reported a missed sample tick. -/
  | tickOverrun
  /-- ILLOP: a reserved word on the port. -/
  | reservedWord
deriving DecidableEq, Repr

/-- A byte memory: the listed addresses in strictly rising order, none holding what an unlisted address reads as. -/
abbrev Memory := List Host.Cell

/-- The state of the block in a configuration. -/
structure State.Of (c : Configuration) where
  /-- QBUF, the queue's storage, slots 0 to QCAP-1 (R21). -/
  qbuf : Memory
  /-- QHEAD, the slot the next POP reads (R22). -/
  qhead : Fin c.qcap
  /-- QTAIL, the slot the next accepted PUSH writes (R22). -/
  qtail : Fin c.qcap
  /-- QCNT, bytes pushed and not yet popped, 0 to QCAP (R23). -/
  qcnt : Fin (c.qcap + 1)
  /-- SHIFT, the Pending-Bits Register (R24). -/
  shift : BitVec c.srw
  /-- ENDM, the End-Marker Flag (R25). -/
  endm : Bool
  /-- KEY, the keying state (R26). -/
  key : Key
  /-- PHASE, the carrier phase (R27). -/
  phase : Phase
  /-- SEGI, segment selector of the I channel (R28). -/
  segi : Seg
  /-- SEGQ, segment selector of the Q channel (R29). -/
  segq : Seg
  /-- RAMP, the Sub-Symbol Counter, 0 to SYMLEN-1 (R30). -/
  ramp : Fin c.symlen
  /-- IOUT, the last in-phase sample emitted (R31). -/
  iout : BitVec c.sampw
  /-- QOUT, the last quadrature sample emitted (R32). -/
  qout : BitVec c.sampw
  /-- OVRCNT, the tick-overrun counter (R33). -/
  ovrcnt : BitVec 16
  /-- QOVF, sticky: a PUSH was rejected (R34). -/
  qovf : Bool
  /-- TOVR, sticky: a sample tick was missed (R34). -/
  tovr : Bool
  /-- ILLOP, sticky: a reserved word was presented (R34). -/
  illop : Bool
  /-- MODEL's own: what the environment has decided to do next, in the order the port accepts it (R9, R66). -/
  inputs : List Input
  /-- MODEL's own: the response word of the last operation, none before the first since reset (R9, R84). -/
  response : Option Response
deriving DecidableEq, Repr

/-- The state of this hardware. -/
abbrev State : Type := State.Of Config.hardware

/-- The block right after reset (R47, R210). QBUF is unspecified by the spec; here it lists nothing (assumption 5).
A block that was never reset is not represented (assumption 11). -/
def State.Of.reset (c : Configuration) : State.Of c where
  qbuf := []
  qhead := ⟨0, c.qcap_pos⟩
  qtail := ⟨0, c.qcap_pos⟩
  qcnt := ⟨0, Nat.succ_pos _⟩
  shift := 0#c.srw
  endm := false
  key := .stopped
  phase := .phoff
  segi := .z
  segq := .z
  ramp := ⟨0, c.symlen_pos⟩
  iout := 0#c.sampw
  qout := 0#c.sampw
  ovrcnt := 0#16
  qovf := false
  tovr := false
  illop := false
  inputs := []
  response := none

/-- This hardware right after reset. -/
def State.reset : State := State.Of.reset Config.hardware

/-- The block has no faults: "The block raises no synchronous exception and takes no trap" (R190), and every access is in
range (R61 to R64). The type has no constructor, so no step can stop with one. -/
inductive Fault where
deriving DecidableEq, Repr

/-- Why the model gives an instruction no meaning. -/
inductive Refusal where
  /-- Raised by an arm of `exec` for an instruction without a meaning; no arm of this model does. Safe: the run stops. -/
  | notModelled (mnemonic : String)
deriving DecidableEq, Repr

end Sys2Proof.Machine
end

