-- ==== Sys2Proof/Machine/Tables.lean ====
section
/-! DEFINITION. The transition table TRANS (spec/41_phase_shape_machine.md R131), fixed by the spec and no parameter (R8), and
the rest levels it is checked against (R132). -/

namespace Sys2Proof.Machine

/-- TRANS[y][p]: (I segment, Q segment, next phase), all twenty entries (R131). -/
def transTable (y : Symbol) (p : Phase) : Seg × Seg × Phase :=
  match y, p with
  | .nochg, .ph0 => (.p, .p, .ph0)
  | .nochg, .ph90 => (.m, .p, .ph90)
  | .nochg, .ph180 => (.m, .m, .ph180)
  | .nochg, .ph270 => (.p, .m, .ph270)
  | .nochg, .phoff => (.z, .z, .phoff)
  | .rev180, .ph0 => (.pm, .pm, .ph180)
  | .rev180, .ph90 => (.mp, .pm, .ph270)
  | .rev180, .ph180 => (.mp, .mp, .ph0)
  | .rev180, .ph270 => (.pm, .mp, .ph90)
  | .rev180, .phoff => (.z, .z, .phoff)
  | .coff, .ph0 => (.pz, .pz, .phoff)
  | .coff, .ph90 => (.mz, .pz, .phoff)
  | .coff, .ph180 => (.mz, .mz, .phoff)
  | .coff, .ph270 => (.pz, .mz, .phoff)
  | .coff, .phoff => (.z, .z, .phoff)
  | .con, .ph0 => (.p, .p, .ph0)
  | .con, .ph90 => (.m, .p, .ph90)
  | .con, .ph180 => (.m, .m, .ph180)
  | .con, .ph270 => (.p, .m, .ph270)
  | .con, .phoff => (.zp, .zp, .ph0)

/-- Rest level of the I channel at a phase, in units of AMP (R132). -/
def restI : Phase → Int
  | .ph0 => 1
  | .ph90 => -1
  | .ph180 => -1
  | .ph270 => 1
  | .phoff => 0

/-- Rest level of the Q channel at a phase, in units of AMP (R132). -/
def restQ : Phase → Int
  | .ph0 => 1
  | .ph90 => 1
  | .ph180 => -1
  | .ph270 => -1
  | .phoff => 0

end Sys2Proof.Machine
end

