-- ==== Sys2Proof/Machine/Ops.lean ====
section
/-! DEFINITION. The named operations over memory and registers: the byte memory behind QBUF, the five access primitives
(spec/20_memory.md R74), the arithmetic of spec/44_arithmetic_and_absent_classes.md R160, one named update for each group of
registers that a rule writes together, and the recording of an error condition, which is all this block has in the place
of taking an exception (spec/60_exceptions.md R190, R198). -/

namespace Sys2Proof.Machine

/-- What an unlisted address of a byte memory reads as. The spec leaves a queue slot that has not been written since reset
unspecified and no rule reads one (R21); the value is the model's (assumption 5). -/
def Memory.unlisted : Byte := 0

/-- The byte at an address. -/
def Memory.read (m : Memory) (a : Nat) : Byte :=
  match m with
  | [] => Memory.unlisted
  | (k, v) :: r => if k = a then v else Memory.read r a

/-- An address and its byte put before a memory whose addresses are all above it, left out where the byte is what an
unlisted address reads as. -/
def Memory.consCell (a : Nat) (b : Byte) (m : Memory) : Memory :=
  if b = Memory.unlisted then m else (a, b) :: m

/-- Store a byte; the canonical form is kept. -/
def Memory.write (m : Memory) (a : Nat) (b : Byte) : Memory :=
  match m with
  | [] => Memory.consCell a b []
  | (k, v) :: r =>
    if a < k then Memory.consCell a b ((k, v) :: r)
    else if a = k then Memory.consCell a b r
    else (k, v) :: Memory.write r a b

/-- Every listed address is above `lo`, the addresses rise strictly, and no entry holds what an unlisted address reads
as. -/
def Memory.wfAbove (lo : Nat) : Memory → Bool
  | [] => true
  | (k, v) :: r => decide (lo ≤ k) && decide (v ≠ Memory.unlisted) && Memory.wfAbove (k + 1) r

/-- The canonical form of a memory. -/
def Memory.wf (m : Memory) : Bool := Memory.wfAbove 0 m

/-- Every listed address is below `n`. -/
def Memory.within (n : Nat) (m : Memory) : Bool := m.all fun c => decide (c.1 < n)

/-- The next slot index, (index + 1) mod QCAP (R61, R160 rows 3 and 4). -/
def nextSlot {c : Configuration} (i : Fin c.qcap) : Fin c.qcap :=
  ⟨(i.val + 1) % c.qcap, Nat.mod_lt _ c.qcap_pos⟩

/-- shl1 on SRW bits: the top bit is discarded and a 0 enters at bit 0 (R11, R160 row 8). -/
def shl1 {w : Nat} (e : BitVec w) : BitVec w := e <<< 1

/-- SHIFT[SRW-1], the top bit (R160 row 9). -/
def topBit {w : Nat} (e : BitVec w) : Bool := e.msb

/-- min(n + 1, 0xFFFF) (R160 row 11). -/
def satInc (n : BitVec 16) : BitVec 16 := if n = 0xFFFF#16 then 0xFFFF#16 else n + 1#16

/-- QRead() (R74). Used by POP only, when QCNT > 0. -/
def qRead {c : Configuration} (s : State.Of c) : Byte := Memory.read s.qbuf s.qhead.val

/-- VRead(b) (R74). -/
def vRead (c : Configuration) (b : Byte) : BitVec c.srw := c.code b

/-- The physical shape ROM: sample k of a segment is stored at physical offset k + BIAS (R63). -/
def shapeRom (c : Configuration) (g : Seg) (off : Nat) : BitVec c.sampw :=
  BitVec.ofInt c.sampw (c.params.shape g (off - c.bias))

/-- SRead(s, k) (R74), through the physical offset k + BIAS of R63. -/
def sRead {c : Configuration} (g : Seg) (k : Fin c.symlen) : BitVec c.sampw := shapeRom c g (k.val + c.bias)

/-- TRead(y, p) (R74). -/
def tRead (y : Symbol) (p : Phase) : Seg × Seg × Phase := transTable y p

/-- The two samples of a TICK are written together (R150 step 1). -/
def State.Of.setOut {c : Configuration} (s : State.Of c) (i q : BitVec c.sampw) : State.Of c :=
  { s with iout := i, qout := q }

/-- Write RAMP (R150 steps 2 and 3). -/
def State.Of.setRamp {c : Configuration} (s : State.Of c) (k : Fin c.symlen) : State.Of c :=
  { s with ramp := k }

/-- The offset at which a TICK is the last of its symbol period, SYMLEN - 1 (R150 step 3). -/
def lastOffset (c : Configuration) : Fin c.symlen := ⟨c.symlen - 1, Nat.sub_lt c.symlen_pos Nat.one_pos⟩

/-- Write KEY (R112, R172, R173). -/
def State.Of.setKey {c : Configuration} (s : State.Of c) (k : Key) : State.Of c :=
  { s with key := k }

/-- Write SHIFT (R116, R117). -/
def State.Of.setShift {c : Configuration} (s : State.Of c) (e : BitVec c.srw) : State.Of c :=
  { s with shift := e }

/-- Write ENDM (R115, R117). -/
def State.Of.setEndm {c : Configuration} (s : State.Of c) (b : Bool) : State.Of c :=
  { s with endm := b }

/-- The three registers of the phase/shape machine are written together (R130). -/
def State.Of.setPsm {c : Configuration} (s : State.Of c) (e : Seg × Seg × Phase) : State.Of c :=
  { s with segi := e.1, segq := e.2.1, phase := e.2.2 }

/-- QCNT + 1, formed only when QCNT < QCAP, where the bound changes nothing (R160 row 6, assumption 12). -/
def countUp {c : Configuration} (n : Fin (c.qcap + 1)) : Fin (c.qcap + 1) :=
  ⟨min (n.val + 1) c.qcap, Nat.lt_succ_of_le (Nat.min_le_right _ _)⟩

/-- QCNT - 1, formed only when QCNT > 0 (R160 row 5, assumption 12). -/
def countDown {c : Configuration} (n : Fin (c.qcap + 1)) : Fin (c.qcap + 1) :=
  ⟨n.val - 1, Nat.lt_of_le_of_lt (Nat.sub_le _ _) n.isLt⟩

/-- The byte at the head leaves the queue (R114). Used when QCNT > 0. -/
def State.Of.dequeue {c : Configuration} (s : State.Of c) : State.Of c :=
  { s with qhead := nextSlot s.qhead, qcnt := countDown s.qcnt }

/-- A byte is appended at the tail (R170); QWrite(b) of R74. Used when QCNT < QCAP. -/
def State.Of.enqueue {c : Configuration} (s : State.Of c) (b : Byte) : State.Of c :=
  { s with qbuf := Memory.write s.qbuf s.qtail.val b, qtail := nextSlot s.qtail, qcnt := countUp s.qcnt }

/-- Hand back a response word (R84). -/
def State.Of.respond {c : Configuration} (s : State.Of c) (r : Response) : State.Of c :=
  { s with response := some r }

/-- The environment's choices that remain after the first has been taken. -/
def State.Of.setInputs {c : Configuration} (s : State.Of c) (l : List Input) : State.Of c :=
  { s with inputs := l }

/-- An operation word is presented at the port, before whatever the environment had decided to do next (R9). -/
def State.Of.present {c : Configuration} (s : State.Of c) (w : OpWord) : State.Of c :=
  s.setInputs (.word w :: s.inputs)

/-- Record an error condition: its sticky flag is set, and a tick overrun is counted, saturating (R171, R175, R176,
R190). Nothing else is saved, masked or moved (R198). -/
def recordError {c : Configuration} (e : ErrorCond) (s : State.Of c) : State.Of c :=
  match e with
  | .queueOverrun => { s with qovf := true }
  | .tickOverrun => { s with tovr := true, ovrcnt := satInc s.ovrcnt }
  | .reservedWord => { s with illop := true }

/-- RESET: every register takes its reset value, QBUF is not written, and what the environment does next is not the
block's (R210, R212). No response word is returned to a reset. -/
def resetEvent {c : Configuration} (s : State.Of c) : State.Of c :=
  { State.Of.reset c with qbuf := s.qbuf, inputs := s.inputs }

end Sys2Proof.Machine
end

