-- ==== Sys2Proof/Machine/Flags.lean ====
section
/-! DEFINITION. The numeric codes of the enumerated registers (spec/10_state.md R26, R27, R28), the derived flags, and the
status word (R35). The block has no arithmetic condition codes (R37). -/

namespace Sys2Proof.Machine

/-- Code of KEY, two bits (R26). -/
def keyCode : Key → BitVec 2
  | .stopped => 0
  | .starting => 1
  | .running => 2

/-- Code of PHASE, three bits (R27). -/
def phaseCode : Phase → BitVec 3
  | .ph0 => 0
  | .ph90 => 1
  | .ph180 => 2
  | .ph270 => 3
  | .phoff => 4

/-- Code of SEGI and SEGQ, four bits (R28, R94). -/
def segCode : Seg → BitVec 4
  | .z => 0
  | .p => 1
  | .m => 2
  | .zp => 3
  | .pz => 4
  | .zm => 5
  | .mz => 6
  | .pm => 7
  | .mp => 8

/-- QEMPTY: QCNT = 0 (R23, R35). -/
def queueEmpty {c : Configuration} (s : State.Of c) : Bool := decide (s.qcnt.val = 0)

/-- QFULL: QCNT = QCAP (R23, R35). -/
def queueFull {c : Configuration} (s : State.Of c) : Bool := decide (s.qcnt.val = c.qcap)

/-- The bit of STATUS that an error condition has as its code (R190). -/
def errorCode : ErrorCond → Nat
  | .queueOverrun => 2
  | .tickOverrun => 3
  | .reservedWord => 4

/-- STATUS, from bit 31 down to bit 0: OVRCNT, QCNT, PHASE, KEY, ENDM, ILLOP, TOVR, QOVF, QFULL, QEMPTY (R35). -/
def statusWord {c : Configuration} (s : State.Of c) : Response :=
  s.ovrcnt ++ BitVec.ofNat 5 s.qcnt.val ++ phaseCode s.phase ++ keyCode s.key ++ BitVec.ofBool s.endm ++
    BitVec.ofBool s.illop ++ BitVec.ofBool s.tovr ++ BitVec.ofBool s.qovf ++ BitVec.ofBool (queueFull s) ++
    BitVec.ofBool (queueEmpty s)

end Sys2Proof.Machine
end

