-- ==== Sys2Proof/Machine/Operands.lean ====
section
/-! DEFINITION. What goes in and out of an operation: the response words of spec/30_encoding.md R84. The one operand there
is, the byte of PUSH, is used whole (R82). -/

namespace Sys2Proof.Machine

/-- The response of a TICK: the pair just emitted, I in bits 15:0 and Q in bits 31:16, each sign-extended to 16 bits
(R84). -/
def pairResponse {w : Nat} (i q : BitVec w) : Response := q.signExtend 16 ++ i.signExtend 16

/-- The response of a PUSH: bit 0 says whether the byte was accepted (R84). -/
def pushResponse (accepted : Bool) : Response := if accepted then 1 else 0

/-- The response of TXSTART, TXSTOP, TICKOVR and of a reserved word (R84). -/
def zeroResponse : Response := 0

end Sys2Proof.Machine
end

