-- ==== Sys2Proof/Machine/Control.lean ====
section
/-! DEFINITION. The character source and the control operations (spec/43_character_source_and_control.md): PUSH, TXSTART,
TXSTOP, RDSTAT, TICKOVR, and the whole effect of a reserved word. -/

namespace Sys2Proof.Machine

/-- PUSH b: accepted when the queue is not full (R170), else rejected with QOVF (R171). -/
def execPush {c : Configuration} (b : Byte) (s : State.Of c) : Host.Outcome (State.Of c) Fault Refusal :=
  if s.qcnt.val < c.qcap then .next ((s.enqueue b).respond (pushResponse true))
  else .next ((recordError .queueOverrun s).respond (pushResponse false))

/-- TXSTART: STOPPED becomes STARTING, the other two stay (R172). -/
def execTxstart {c : Configuration} (s : State.Of c) : Host.Outcome (State.Of c) Fault Refusal :=
  match s.key with
  | .stopped => .next ((s.setKey .starting).respond zeroResponse)
  | .starting | .running => .next (s.respond zeroResponse)

/-- TXSTOP (R173). -/
def execTxstop {c : Configuration} (s : State.Of c) : Host.Outcome (State.Of c) Fault Refusal :=
  .next ((s.setKey .stopped).respond zeroResponse)

/-- RDSTAT: returns STATUS and changes nothing (R174). -/
def execRdstat {c : Configuration} (s : State.Of c) : Host.Outcome (State.Of c) Fault Refusal :=
  .next (s.respond (statusWord s))

/-- TICKOVR (R175). -/
def execTickovr {c : Configuration} (s : State.Of c) : Host.Outcome (State.Of c) Fault Refusal :=
  .next ((recordError .tickOverrun s).respond zeroResponse)

/-- RESERVED(w): ILLOP is set and nothing else, whatever `w` is (R176). It is no row of the opcode table: `step` applies it
to every word that the decoder calls reserved. -/
def reservedOp {c : Configuration} (_w : OpWord) (s : State.Of c) : State.Of c :=
  (recordError .reservedWord s).respond zeroResponse

end Sys2Proof.Machine
end

