-- ==== Sys2Proof/Machine/Encoder.lean ====
section
/-! DEFINITION. The varicode symbol encoder VSE: NEXTSYM with its three arms and three data paths, and POP
(spec/40_symbol_encoder.md). NEXTSYM runs only inside a TICK at a symbol boundary. And the state in which that TICK produces
a given symbol, for `State.withFetchWord`. -/

namespace Sys2Proof.Machine

/-- POP: the byte at the head of the queue, or IDLE_CHAR with the queue unchanged (R114). -/
def pop {c : Configuration} (s : State.Of c) : Byte × State.Of c :=
  if s.qcnt.val = 0 then (c.idleChar, s) else (qRead s, s.dequeue)

/-- ARM_STOPPED (R111). -/
def armStopped {c : Configuration} (s : State.Of c) : Symbol × State.Of c := (.coff, s)

/-- ARM_STARTING (R112). -/
def armStarting {c : Configuration} (s : State.Of c) : Symbol × State.Of c := (.con, s.setKey .running)

/-- PATH_SEPARATOR (R115). -/
def pathSeparator {c : Configuration} (s : State.Of c) : Symbol × State.Of c := (.rev180, s.setEndm false)

/-- PATH_LOAD (R116). -/
def pathLoad {c : Configuration} (s : State.Of c) : Symbol × State.Of c := (.rev180, (pop s).2.setShift (vRead c (pop s).1))

/-- PATH_SHIFT (R117): ENDM is set when the shift empties SHIFT, and is not cleared otherwise. With ENDM = 1 on entry,
which no run reaches (R42), the path is the same and ENDM stays 1 (assumption 8). -/
def pathShift {c : Configuration} (s : State.Of c) : Symbol × State.Of c :=
  (if topBit s.shift then .nochg else .rev180,
    if shl1 s.shift = 0#c.srw then (s.setShift (shl1 s.shift)).setEndm true else s.setShift (shl1 s.shift))

/-- ARM_DATA (R113): the test of SHIFT comes first. -/
def armData {c : Configuration} (s : State.Of c) : Symbol × State.Of c :=
  if s.shift = 0#c.srw then
    if s.endm then pathSeparator s else pathLoad s
  else pathShift s

/-- NEXTSYM (R110). -/
def nextSym {c : Configuration} (s : State.Of c) : Symbol × State.Of c :=
  match s.key with
  | .stopped => armStopped s
  | .starting => armStarting s
  | .running => armData s

/-- The state with RAMP at the symbol boundary and the encoder about to return `y`, everything else as it is (assumption 2).
NOCHG is the last bit of a pending code (R117), REV180 an owed separator (R115), COFF and CON the keying symbols (R111,
R112). No step does this: it stands for the operations that lead the encoder there. -/
def State.Of.beforeSymbol {c : Configuration} (y : Symbol) (s : State.Of c) : State.Of c :=
  match y with
  | .nochg => (((s.setRamp (lastOffset c)).setKey .running).setShift (BitVec.twoPow c.srw (c.srw - 1))).setEndm false
  | .rev180 => (((s.setRamp (lastOffset c)).setKey .running).setShift 0#c.srw).setEndm true
  | .coff => (s.setRamp (lastOffset c)).setKey .stopped
  | .con => (s.setRamp (lastOffset c)).setKey .starting

end Sys2Proof.Machine
end

