-- ==== Sys2Proof/Machine/Shape.lean ====
section
/-! DEFINITION. The phase/shape state machine PSM: RESOLVE and the four symbols (spec/41_phase_shape_machine.md). A symbol
returns no response word: it never crosses the block boundary (R86). -/

namespace Sys2Proof.Machine

/-- RESOLVE(y): PHASE is read before it is written (R130). -/
def resolve {c : Configuration} (y : Symbol) (s : State.Of c) : State.Of c := s.setPsm (tRead y s.phase)

/-- NOCHG (R135). -/
def execNochg {c : Configuration} (s : State.Of c) : Host.Outcome (State.Of c) Fault Refusal := .next (resolve .nochg s)

/-- REV180 (R136). -/
def execRev180 {c : Configuration} (s : State.Of c) : Host.Outcome (State.Of c) Fault Refusal := .next (resolve .rev180 s)

/-- COFF (R137). -/
def execCoff {c : Configuration} (s : State.Of c) : Host.Outcome (State.Of c) Fault Refusal := .next (resolve .coff s)

/-- CON (R138). -/
def execCon {c : Configuration} (s : State.Of c) : Host.Outcome (State.Of c) Fault Refusal := .next (resolve .con s)

end Sys2Proof.Machine
end

