-- ==== Sys2Proof/Machine/Synth.lean ====
section
/-! DEFINITION. The sample synthesizer SYN: the operation TICK (spec/42_sample_synthesizer.md R150). -/

namespace Sys2Proof.Machine

/-- Step 1: both samples are read at offset RAMP of the present segments (R150). -/
def emitPair {c : Configuration} (s : State.Of c) : State.Of c := s.setOut (sRead s.segi s.ramp) (sRead s.segq s.ramp)

/-- The symbol boundary: RAMP goes to 0, then NEXTSYM, then RESOLVE of the symbol it returned (R150 step 3). -/
def symbolBoundary {c : Configuration} (s : State.Of c) : State.Of c :=
  resolve (nextSym (s.setRamp ⟨0, c.symlen_pos⟩)).1 (nextSym (s.setRamp ⟨0, c.symlen_pos⟩)).2

/-- Steps 2 and 3: t = RAMP + 1 is compared with SYMLEN as a natural number; RAMP takes t only below SYMLEN (R150, R160
rows 1 and 2). -/
def advance {c : Configuration} (s : State.Of c) : State.Of c :=
  if h : s.ramp.val + 1 < c.symlen then s.setRamp ⟨s.ramp.val + 1, h⟩ else symbolBoundary s

/-- TICK (R150). The response carries the pair written in step 1. -/
def execTick {c : Configuration} (s : State.Of c) : Host.Outcome (State.Of c) Fault Refusal :=
  .next ((advance (emitPair s)).respond (pairResponse (emitPair s).iout (emitPair s).qout))

end Sys2Proof.Machine
end

