-- ==== Sys2Proof/Machine/Block.lean ====
section
/-! DEFINITION. The meaning of every instruction in any configuration (spec/10_state.md R38: a model passes the parameters to
the step function). `exec` of `Sys2Proof.Machine.Dispatch` is this at the configuration of this hardware. -/

namespace Sys2Proof.Machine

/-- The meaning of one instruction in a configuration. -/
def execOf {c : Configuration} (i : Instr) (s : State.Of c) : Host.Outcome (State.Of c) Fault Refusal :=
  match i with
  | .tick => execTick s
  | .push b => execPush b s
  | .txstart => execTxstart s
  | .txstop => execTxstop s
  | .rdstat => execRdstat s
  | .tickovr => execTickovr s
  | .nochg => execNochg s
  | .rev180 => execRev180 s
  | .coff => execCoff s
  | .con => execCon s

end Sys2Proof.Machine
end

