-- ==== Sys2Proof/Machine/Dispatch.lean ====
section
/-! DEFINITION. One arm per row of spec/opcode_table.json. -/

namespace Sys2Proof.Machine

/-- The meaning of one instruction. -/
def exec (i : Instr) (s : State) : Host.Outcome State Fault Refusal :=
  match i with
  | .tick => Sys2Proof.Machine.execTick s
  | .push b => Sys2Proof.Machine.execPush b s
  | .txstart => Sys2Proof.Machine.execTxstart s
  | .txstop => Sys2Proof.Machine.execTxstop s
  | .rdstat => Sys2Proof.Machine.execRdstat s
  | .tickovr => Sys2Proof.Machine.execTickovr s
  | .nochg => Sys2Proof.Machine.execNochg s
  | .rev180 => Sys2Proof.Machine.execRev180 s
  | .coff => Sys2Proof.Machine.execCoff s
  | .con => Sys2Proof.Machine.execCon s

end Sys2Proof.Machine
end

