-- ==== Sys2Proof/Machine/Step.lean ====
section
/-! DEFINITION. One step of the block (spec/00_scope.md R9): the first thing the environment does is taken from the port,
and its rule runs to completion. There is no fetch and no program counter (spec/10_state.md R36); `inputs` stands for the
sequence of accepted operations (spec/20_memory.md R66), in whatever order the agents' operations were serialised (R75).
Operation words and the reset event are all there is: no agent can touch the state in any other way (R233). -/

namespace Sys2Proof.Machine

/-- One step, with the meanings of the instructions given. With nothing presented the block waits, unchanged (R9, R213). A
reset event may come between any two operations (R210, R211). A reserved word has its whole effect here (R176, R195). -/
def stepBy {c : Configuration} (run : Instr → State.Of c → Host.Outcome (State.Of c) Fault Refusal) (s : State.Of c) :
    Host.Outcome (State.Of c) Fault Refusal :=
  match s.inputs with
  | [] => .next s
  | .reset :: rest => .next (resetEvent (s.setInputs rest))
  | .word w :: rest =>
    match decode (.cmd w) with
    | .instr i => run i (s.setInputs rest)
    | .reserved w => .next (reservedOp w (s.setInputs rest))

/-- One step of the block in a configuration, which is a parameter of the step (R38). -/
def stepOf (c : Configuration) (s : State.Of c) : Host.Outcome (State.Of c) Fault Refusal := stepBy execOf s

/-- One step of this hardware. -/
def step (s : State) : Host.Outcome State Fault Refusal := stepBy exec s

/-- The state whose very next step runs the instruction of a row of spec/opcode_table.json. An operation word is presented at
the port. A symbol is no word of the port (R86, R233): it runs inside the TICK whose NEXTSYM returns it, so the encoder is set
to return it and that TICK is presented (assumption 2). Bits that are no word of the given length present nothing. -/
def State.withFetchWord (s : State) (nbits w : Nat) : State :=
  match instrWordOfBits nbits w with
  | some (.cmd w) => s.present w
  | some (.sym y) => (s.beforeSymbol (symbolOfCode y)).present 0x100#12
  | none => s

end Sys2Proof.Machine
end

