-- ==== Sys2Proof/Safety.lean ====
section
/-! DEFINITION. The terms in which claims about the block are stated: the invariants of spec/10_state.md section 7, the
content of the queue, sequences of operations and of symbols, and the run of spec/70_reset_and_hazards.md R234. -/

namespace Sys2Proof.Machine

/-- The invariants R41 to R45, the canonical form of QBUF, and the agreement of TOVR with OVRCNT (R193). The bounds of R41
and R46 are in the types of the fields. -/
structure Invariants {c : Configuration} (s : State.Of c) : Prop where
  /-- QTAIL = (QHEAD + QCNT) mod QCAP (R41). -/
  queue : s.qtail.val = (s.qhead.val + s.qcnt.val) % c.qcap
  /-- QBUF is in its canonical form. -/
  memory : Memory.wf s.qbuf = true
  /-- QBUF has no slot but 0 to QCAP-1 (R21). -/
  slots : Memory.within c.qcap s.qbuf = true
  /-- ENDM = 1 implies SHIFT = 0 (R42). -/
  encoder : s.endm = true → s.shift = 0#c.srw
  /-- KEY = RUNNING implies PHASE is not PHOFF (R43). -/
  keying : s.key = .running → s.phase ≠ .phoff
  /-- PHASE is PHOFF, PH0 or PH180 (R44). -/
  phase : s.phase = .phoff ∨ s.phase = .ph0 ∨ s.phase = .ph180
  /-- SEGI = SEGQ (R44). -/
  segs : s.segi = s.segq
  /-- IOUT = QOUT (R44). -/
  outs : s.iout = s.qout
  /-- The end level of SEGI is the I rest level of PHASE (R45). -/
  contI : segEnd s.segi = restI s.phase
  /-- The end level of SEGQ is the Q rest level of PHASE (R45). -/
  contQ : segEnd s.segq = restQ s.phase
  /-- TOVR = 0 is equivalent to OVRCNT = 0 (R193). -/
  overrun : s.tovr = decide (s.ovrcnt ≠ 0#16)

/-- The content of the queue, oldest byte first (R41). -/
def queueContent {c : Configuration} (s : State.Of c) : List Byte :=
  (List.range s.qcnt.val).map fun j => Memory.read s.qbuf ((s.qhead.val + j) % c.qcap)

/-- The state after an instruction. That every instruction has a next state is a statement of its own (R190). -/
def after {c : Configuration} (i : Instr) (s : State.Of c) : State.Of c :=
  match execOf i s with
  | .next t => t
  | .fault _ => s
  | .refused _ => s

/-- The state after a sequence of instructions. -/
def afterAll {c : Configuration} : List Instr → State.Of c → State.Of c
  | [], s => s
  | i :: r, s => afterAll r (after i s)

/-- The state after n TICKs. -/
def ticks {c : Configuration} : Nat → State.Of c → State.Of c
  | 0, s => s
  | n + 1, s => ticks n (after .tick s)

/-- The state after n TICKOVRs. -/
def overruns {c : Configuration} : Nat → State.Of c → State.Of c
  | 0, s => s
  | n + 1, s => overruns n (after .tickovr s)

/-- A TICK in this state is at a symbol boundary (R150 step 3). -/
def atBoundary {c : Configuration} (s : State.Of c) : Bool := s.ramp.val + 1 == c.symlen

/-- How many of the next n TICKs are at a symbol boundary, that is, call NEXTSYM (R46, R153). -/
def boundaries {c : Configuration} : Nat → State.Of c → Nat
  | 0, _ => 0
  | n + 1, s => (if atBoundary s then 1 else 0) + boundaries n (after .tick s)

/-- The block seen at the symbol rate: one NEXTSYM and one RESOLVE. -/
def symbolStep {c : Configuration} (s : State.Of c) : State.Of c := resolve (nextSym s).1 (nextSym s).2

/-- n symbol periods at the symbol rate. -/
def symbolSteps {c : Configuration} : Nat → State.Of c → State.Of c
  | 0, s => s
  | n + 1, s => symbolSteps n (symbolStep s)

/-- The symbols of the next n calls of NEXTSYM, and the state they leave. -/
def nextSyms {c : Configuration} : Nat → State.Of c → List Symbol × State.Of c
  | 0, s => ([], s)
  | n + 1, s => ((nextSym s).1 :: (nextSyms n (nextSym s).2).1, (nextSyms n (nextSym s).2).2)

/-- A TICK in this state makes a load: a boundary in RUNNING with nothing pending (R110, R113, R222). -/
def loadsNow {c : Configuration} (s : State.Of c) : Bool :=
  atBoundary s && s.key == .running && s.shift == 0#c.srw && !s.endm

/-- The byte an instruction takes from the queue, if it takes one (R114). -/
def takenBy {c : Configuration} (i : Instr) (s : State.Of c) : List Byte :=
  match i with
  | .tick => if loadsNow s && !(queueEmpty s) then [qRead s] else []
  | .push _ | .txstart | .txstop | .rdstat | .tickovr | .nochg | .rev180 | .coff | .con => []

/-- The byte an instruction puts into the queue, if it puts one (R170). -/
def putBy {c : Configuration} (i : Instr) (s : State.Of c) : List Byte :=
  match i with
  | .push b => if queueFull s then [] else [b]
  | .tick | .txstart | .txstop | .rdstat | .tickovr | .nochg | .rev180 | .coff | .con => []

/-- The bytes a sequence of instructions takes from the queue, in order. -/
def takenByAll {c : Configuration} : List Instr → State.Of c → List Byte
  | [], _ => []
  | i :: r, s => takenBy i s ++ takenByAll r (after i s)

/-- The bytes a sequence of instructions puts into the queue, in order. -/
def putByAll {c : Configuration} : List Instr → State.Of c → List Byte
  | [], _ => []
  | i :: r, s => putBy i s ++ putByAll r (after i s)

/-- Two states that differ at most in the diagnostics (OVRCNT and the three sticky flags), in what the environment does
next and in the last response (R37). -/
def sameButDiagnostics {c : Configuration} (s t : State.Of c) : Prop :=
  { s with ovrcnt := t.ovrcnt, qovf := t.qovf, tovr := t.tovr, illop := t.illop, inputs := t.inputs,
           response := t.response } = t

/-- One operation word presented and served: the state it leaves. -/
def serveWord {c : Configuration} (w : OpWord) (s : State.Of c) : State.Of c :=
  match stepOf c (s.present w) with
  | .next t => t
  | .fault _ => s
  | .refused _ => s

/-- A run (R234): a finite list of operation words applied in order; it yields the list of response words and the final
state. -/
def runWords {c : Configuration} : List OpWord → State.Of c → List (Option Response) × State.Of c
  | [], s => ([], s)
  | w :: r, s => ((serveWord w s).response :: (runWords r (serveWord w s)).1, (runWords r (serveWord w s)).2)

/-- SHAPE meets R94: every segment starts and ends at its level. -/
def shapeEndpoints (t : Seg → Nat → Int) (g : Seg) : Bool :=
  t g 0 == Config.amp * segStart g && t g (Config.symlen - 1) == Config.amp * segEnd g

/-- SHAPE meets R95 in one segment: its values are in range, and a segment whose two levels agree is constant. -/
def shapeInRange (t : Seg → Nat → Int) (g : Seg) : Bool :=
  (List.range Config.symlen).all fun k =>
    decide (-(Config.amp : Int) ≤ t g k) && decide (t g k ≤ Config.amp) &&
      (segStart g != segEnd g || t g k == Config.amp * segStart g)

end Sys2Proof.Machine
end

