-- ==== Sys2Proof/Certificates/Slice0/Obligations.lean ====
section
/-! DEFINITION. The statements for the provers. Each docstring names the rules of spec/ that its statement formalises. -/

open Sys2Proof Sys2Proof.Machine

/-! ## Encoding -/

/-- R80, R81, R82, R86, R101: a word decodes to an instruction exactly when it is that instruction's encoding, for
every word and every operand. No bit of an encoding is dropped and no two words are one instruction. -/
def Obligations.DecodeExactlyInvertsEncode : Prop :=
  ∀ (p : InstrWord) (i : Instr), decode p = .instr i ↔ encode i = p

/-- R81, R83, R101: on all 4096 operation words the decoder rejects exactly the words that match no row of the table of
R81 under the row's mask, and rejects each by its own name. -/
def Obligations.ReservedExactlyWhenNoRowMatches : Prop :=
  ∀ w : OpWord,
    (assigned w = false ↔ decode (.cmd w) = .reserved w) ∧
    (assigned w = true ↔ ∃ i, decode (.cmd w) = .instr i)

/-- R81, R83, R86: words written out from the tables of the spec decode to what the tables say. -/
def Obligations.WrittenOutWordsDecode : Prop :=
  decode (.cmd 0b000100000000#12) = .instr .tick ∧
  decode (.cmd 0b001001000001#12) = .instr (.push 0x41#8) ∧
  decode (.cmd 0b001100000000#12) = .instr .txstart ∧
  decode (.cmd 0b010000000000#12) = .instr .txstop ∧
  decode (.cmd 0b010100000000#12) = .instr .rdstat ∧
  decode (.cmd 0b011000000000#12) = .instr .tickovr ∧
  decode (.cmd 0b000100000001#12) = .reserved 0x101#12 ∧
  decode (.cmd 0b000000000000#12) = .reserved 0x000#12 ∧
  decode (.sym 0b00#2) = .instr .nochg ∧
  decode (.sym 0b01#2) = .instr .rev180 ∧
  decode (.sym 0b10#2) = .instr .coff ∧
  decode (.sym 0b11#2) = .instr .con

/-- R87, R162: shifting a ROM word left by one makes it zero after exactly as many shifts as its code has bits. -/
def Obligations.ShiftsEmptyAWordAfterItsWidth : Prop :=
  ∀ (e : Config.CodeWord) (n : Nat), shl1^[n] e = 0#20 ↔ codeWidth e ≤ n

/-! ## Reset -/

/-- R47: the state after reset; QBUF is unspecified and not mentioned. -/
def Obligations.ResetLeavesTheTabledState : Prop :=
  State.reset.qhead.val = 0 ∧ State.reset.qtail.val = 0 ∧ State.reset.qcnt.val = 0 ∧
  State.reset.shift = 0#20 ∧ State.reset.endm = false ∧
  State.reset.key = .stopped ∧ State.reset.phase = .phoff ∧ State.reset.segi = .z ∧ State.reset.segq = .z ∧
  State.reset.ramp.val = 0 ∧ State.reset.iout = 0#16 ∧ State.reset.qout = 0#16 ∧ State.reset.ovrcnt = 0#16 ∧
  State.reset.qovf = false ∧ State.reset.tovr = false ∧ State.reset.illop = false ∧
  statusWord State.reset = 0x00000401#32

/-- R210: the reset event is one step in which every register takes its reset value and QBUF is not written. (That the
last response is forgotten and what waits at the port stays is the model's choice, assumption 1.) -/
def Obligations.ResetEventRestoresEveryRegister : Prop :=
  ∀ (s : State) (rest : List Input), s.inputs = .reset :: rest →
    step s = .next { State.reset with qbuf := s.qbuf, inputs := rest }

/-! ## The step -/

/-- R9, R101: when the operation word at the port decodes to an instruction, the step is that instruction's meaning at the
state with the word taken from the port. Every instruction is well-formed. That what is presented stands in the list `inputs`,
whose head the step takes, is the model's choice (assumption 1). How a symbol reaches the step is said by
BoundaryTickRunsTheSymbolOfNextSym. -/
def Obligations.StepRunsTheDecodedInstruction : Prop :=
  ∀ (s : State) (w : OpWord) (rest : List Input) (i : Instr),
    s.inputs = .word w :: rest → decode (.cmd w) = .instr i → i.wellFormed = true ∧ step s = exec i { s with inputs := rest }

/-- R176: a reserved word sets ILLOP, answers 0 and changes nothing else, whatever the word is. -/
def Obligations.ReservedWordOnlySetsIllop : Prop :=
  ∀ (s : State) (w : OpWord) (rest : List Input), s.inputs = .word w :: rest → assigned w = false →
    step s = .next { s with inputs := rest, illop := true, response := some 0#32 }

/-- R9, R213, by inference (assumption 7, the model's reading): with nothing presented, nothing changes. -/
def Obligations.WaitingChangesNothing : Prop :=
  ∀ s : State, s.inputs = [] → step s = .next s

/-- R190: no step faults or refuses, in any state; every instruction has a next state, and every operation word is
answered with a response word in the same step. -/
def Obligations.EveryStepCompletes : Prop :=
  (∀ s : State, ∃ t, step s = .next t) ∧
  (∀ (i : Instr) (s : State), ∃ t, exec i s = .next t) ∧
  (∀ (s : State) (w : OpWord) (rest : List Input), s.inputs = .word w :: rest →
    ∃ t r, step s = .next t ∧ t.response = some r ∧ t.inputs = rest)

/-- R234: a run yields one response word for each operation word, from every state, not from reset only. -/
def Obligations.RunAnswersEveryWord : Prop :=
  ∀ (ws : List OpWord) (s : State),
    (runWords ws s).1.length = ws.length ∧ ∀ r ∈ (runWords ws s).1, r.isSome = true

/-! ## TICK -/

/-- R150: the pair is read at offset RAMP of the present segments; below the boundary RAMP advances by one; at the
boundary RAMP goes to 0, NEXTSYM runs and RESOLVE replaces the three registers by the table entry of its symbol and the
present phase. -/
def Obligations.TickEmitsAdvancesAndCrossesTheBoundary : Prop :=
  (∀ (s : State) (h : s.ramp.val + 1 < 256),
    exec .tick s = .next
      { s with
        iout := shape s.segi s.ramp, qout := shape s.segq s.ramp, ramp := ⟨s.ramp.val + 1, h⟩,
        response := some (shape s.segq s.ramp ++ shape s.segi s.ramp) }) ∧
  (∀ (s : State), s.ramp.val + 1 = 256 →
    exec .tick s = .next
      (let r := nextSym
        { s with iout := shape s.segi s.ramp, qout := shape s.segq s.ramp, ramp := ⟨0, by decide⟩ }
       { r.2 with
         segi := (transTable r.1 r.2.phase).1, segq := (transTable r.1 r.2.phase).2.1,
         phase := (transTable r.1 r.2.phase).2.2,
         response := some (shape s.segq s.ramp ++ shape s.segi s.ramp) }))

/-- R152: inside a symbol period successive TICKs read increasing offsets of the same two segments. -/
def Obligations.OffsetsIncreaseWithinASymbolPeriod : Prop :=
  ∀ (n : Nat) (s : State), s.ramp.val + n < 256 →
    (ticks n s).segi = s.segi ∧ (ticks n s).segq = s.segq ∧ (ticks n s).phase = s.phase ∧
    (ticks n s).ramp.val = s.ramp.val + n

/-- R46: n TICKs advance RAMP by n modulo SYMLEN and make one call of NEXTSYM for each whole symbol length passed; from
reset that is n mod SYMLEN and floor(n / SYMLEN). -/
def Obligations.RampCountsTicksAndBoundaries : Prop :=
  ∀ (n : Nat) (s : State),
    (ticks n s).ramp.val = (s.ramp.val + n) % 256 ∧ boundaries n s = (s.ramp.val + n) / 256

/-- R154, from any symbol boundary on and for TICKs with no other operation between them: the block at the sample rate refines
the block at the symbol rate. TICK number
j * SYMLEN + k + 1 returns offset k of the two segments selected after j symbol steps, and nothing else of the encoder or
the phase/shape machine depends on the samples. -/
def Obligations.SampleStreamRefinesSymbolStream : Prop :=
  ∀ (s : State) (j k : Nat) (hk : k < 256), s.ramp.val = 0 →
    (after .tick (ticks (j * 256 + k) s)).iout = shape (symbolSteps j s).segi ⟨k, hk⟩ ∧
    (after .tick (ticks (j * 256 + k) s)).qout = shape (symbolSteps j s).segq ⟨k, hk⟩ ∧
    (ticks (j * 256 + k) s).shift = (symbolSteps j s).shift ∧
    (ticks (j * 256 + k) s).endm = (symbolSteps j s).endm ∧
    (ticks (j * 256 + k) s).key = (symbolSteps j s).key ∧
    (ticks (j * 256 + k) s).phase = (symbolSteps j s).phase ∧
    queueContent (ticks (j * 256 + k) s) = queueContent (symbolSteps j s)

/-- R156: under the invariants, the pair returned by a boundary TICK is the pair returned by the next TICK. -/
def Obligations.StreamIsContinuousAtTheBoundary : Prop :=
  ∀ s : State, Invariants s → s.ramp.val + 1 = 256 →
    (after .tick (after .tick s)).iout = (after .tick s).iout ∧
    (after .tick (after .tick s)).qout = (after .tick s).qout

/-- R157, its first half: in every state, reachable or not, both samples of a TICK lie between -AMP and AMP. -/
def Obligations.SamplesStayInRange : Prop :=
  ∀ s : State, ∃ t, exec .tick s = .next t ∧
    -16384 ≤ t.iout.toInt ∧ t.iout.toInt ≤ 16384 ∧ -16384 ≤ t.qout.toInt ∧ t.qout.toInt ≤ 16384

/-! ## NEXTSYM and POP -/

/-- R126: the eight rows of the table, each with the whole state it leaves. The last three rows of R126 have ENDM = 0; here
they are stated for every ENDM, which is kept or set as R117 says: that SHIFT not 0 with ENDM = 1 takes PATH_SHIFT too is the
model's reading of R113, assumption 8. -/
def Obligations.NextSymFollowsItsTable : Prop :=
  ∀ s : State,
    (s.key = .stopped → nextSym s = (.coff, s)) ∧
    (s.key = .starting → nextSym s = (.con, { s with key := .running })) ∧
    (s.key = .running → s.shift = 0#20 → s.endm = true → nextSym s = (.rev180, { s with endm := false })) ∧
    (s.key = .running → s.shift = 0#20 → s.endm = false → s.qcnt.val = 0 →
      nextSym s = (.rev180, { s with shift := varicode Config.idleChar })) ∧
    (s.key = .running → s.shift = 0#20 → s.endm = false → 0 < s.qcnt.val →
      nextSym s = (.rev180,
        { s with
          shift := varicode (Memory.read s.qbuf s.qhead.val),
          qhead := ⟨(s.qhead.val + 1) % 26, Nat.mod_lt _ (by decide)⟩,
          qcnt := ⟨s.qcnt.val - 1, by omega⟩ })) ∧
    (s.key = .running → s.shift = 0x80000#20 → nextSym s = (.nochg, { s with shift := 0#20, endm := true })) ∧
    (s.key = .running → s.shift.msb = true → s.shift ≠ 0x80000#20 →
      nextSym s = (.nochg, { s with shift := s.shift <<< 1 }) ∧ s.shift <<< 1 ≠ 0#20) ∧
    (s.key = .running → s.shift.msb = false → s.shift ≠ 0#20 →
      nextSym s = (.rev180, { s with shift := s.shift <<< 1 }) ∧ s.shift <<< 1 ≠ 0#20)

/-- R114: POP on an empty queue supplies the idle character and leaves the queue; otherwise it returns the byte at the
head and removes it. -/
def Obligations.PopReturnsHeadOrIdle : Prop :=
  ∀ s : State,
    (s.qcnt.val = 0 → pop s = (Config.idleChar, s)) ∧
    (0 < s.qcnt.val → pop s = (Memory.read s.qbuf s.qhead.val,
      { s with
        qhead := ⟨(s.qhead.val + 1) % 26, Nat.mod_lt _ (by decide)⟩,
        qcnt := ⟨s.qcnt.val - 1, by omega⟩ }))

/-- R117, R120: with a non-empty code pending, the next width + 1 calls return one symbol for each bit of the code, in
transmission order, and then the end-marker, and leave nothing pending. It is stated for every ENDM on entry: with ENDM = 1,
which R42 shuts out, PATH_SHIFT is taken by the model's reading of R113, assumption 8. -/
def Obligations.PendingCodeIsSentBitByBit : Prop :=
  ∀ s : State, s.key = .running → s.shift ≠ 0#20 →
    nextSyms (codeWidth s.shift + 1) s =
      ((codeBits s.shift).map symbolOfBit ++ [Symbol.rev180], { s with shift := 0#20, endm := false })

/-- R120, R121, R122: with nothing pending, the next character costs width + 2 symbols, the lead-in, its code symbols and
the end-marker, or the lead-in alone where its code is empty; afterwards nothing is pending and exactly that character has
been popped. -/
def Obligations.CharacterCostsItsSymbols : Prop :=
  ∀ s : State, s.key = .running → s.shift = 0#20 → s.endm = false →
    nextSyms (if varicode (pop s).1 = 0#20 then 1 else codeWidth (varicode (pop s).1) + 2) s =
      (if varicode (pop s).1 = 0#20 then [Symbol.rev180]
        else [Symbol.rev180] ++ (codeBits (varicode (pop s).1)).map symbolOfBit ++ [Symbol.rev180],
       { (pop s).2 with shift := 0#20, endm := false })

/-- R90, R192: a character without a code of its own has FALLBACK_CODE, so every character value has a ROM word. -/
def Obligations.UnmappedCharacterHasFallbackCode : Prop :=
  ∀ c : Byte, varicode c = (Config.ownCode c).getD 0x80000#20

/-! ## PUSH and the queue -/

/-- R170: an accepted PUSH stores the byte at the tail, advances the tail modulo QCAP, counts it, answers 1 and touches
nothing else; the slot reads as the byte and every other slot as before. -/
def Obligations.PushAppendsWhenNotFull : Prop :=
  ∀ (b : Byte) (s : State) (h : s.qcnt.val < 26),
    exec (.push b) s = .next
      { s with
        qbuf := Memory.write s.qbuf s.qtail.val b,
        qtail := ⟨(s.qtail.val + 1) % 26, Nat.mod_lt _ (by decide)⟩,
        qcnt := ⟨s.qcnt.val + 1, Nat.succ_lt_succ h⟩,
        response := some 1#32 } ∧
    (Memory.wf s.qbuf = true → Memory.read (Memory.write s.qbuf s.qtail.val b) s.qtail.val = b) ∧
    ∀ a : Nat, a ≠ s.qtail.val → Memory.read (Memory.write s.qbuf s.qtail.val b) a = Memory.read s.qbuf a

/-- R171: a PUSH on a full queue sets QOVF, answers 0 and changes nothing else. -/
def Obligations.PushRejectedWhenFull : Prop :=
  ∀ (b : Byte) (s : State), s.qcnt.val = 26 →
    exec (.push b) s = .next { s with qovf := true, response := some 0#32 }

/-- R177: over any sequence of instructions, what was queued followed by what is accepted is what is taken followed by
what is left, in the same order; and a PUSH is accepted exactly while fewer than QCAP bytes are queued. -/
def Obligations.QueueIsFifo : Prop :=
  (∀ (is : List Instr) (s : State), s.qtail.val = (s.qhead.val + s.qcnt.val) % 26 → Memory.wf s.qbuf = true →
    queueContent s ++ putByAll is s = takenByAll is s ++ queueContent (afterAll is s)) ∧
  (∀ (b : Byte) (s : State), ∃ t, exec (.push b) s = .next t ∧
    (t.response = some 1#32 ↔ (queueContent s).length < 26) ∧
    (t.response = some 0#32 ↔ (queueContent s).length = 26))

/-! ## Keying, status and diagnostics -/

/-- R172: TXSTART makes STOPPED into STARTING and changes nothing else; STARTING and RUNNING stay. -/
def Obligations.TxstartAsksForCarrierOn : Prop :=
  ∀ s : State,
    (s.key = .stopped → exec .txstart s = .next { s with key := .starting, response := some 0#32 }) ∧
    (s.key ≠ .stopped → exec .txstart s = .next { s with response := some 0#32 })

/-- R173: TXSTOP makes KEY STOPPED from anywhere and changes nothing else. -/
def Obligations.TxstopAsksForCarrierOff : Prop :=
  ∀ s : State, exec .txstop s = .next { s with key := .stopped, response := some 0#32 }

/-- R178: KEY changes only as the table says, for every instruction; a TICK away from a boundary keeps it. -/
def Obligations.KeyFollowsItsTable : Prop :=
  ∀ (i : Instr) (s : State), ∃ t, exec i s = .next t ∧
    (i = .txstart → s.key = .stopped → t.key = .starting) ∧
    (i = .txstart → s.key ≠ .stopped → t.key = s.key) ∧
    (i = .txstop → t.key = .stopped) ∧
    (i = .tick → s.ramp.val + 1 = 256 → s.key = .starting → t.key = .running) ∧
    (i = .tick → s.ramp.val + 1 = 256 → s.key ≠ .starting → t.key = s.key) ∧
    (i = .tick → s.ramp.val + 1 ≠ 256 → t.key = s.key) ∧
    (i ≠ .txstart → i ≠ .txstop → i ≠ .tick → t.key = s.key)

/-- R119: while the transmission is stopped, any number of TICKs keep the pending bits, the owed separator and the queue,
and after TXSTART the boundary that emits CON keeps them too. -/
def Obligations.KeyingKeepsThePendingCharacter : Prop :=
  ∀ (n : Nat) (s : State), s.key ≠ .running →
    ((s.key = .stopped ∨ s.ramp.val + n ≤ 256) →
      (ticks n s).shift = s.shift ∧ (ticks n s).endm = s.endm ∧ (ticks n s).qbuf = s.qbuf ∧
      (ticks n s).qhead = s.qhead ∧ (ticks n s).qtail = s.qtail ∧ (ticks n s).qcnt = s.qcnt)

/-- R223, R140: from a state in which the transmission is stopped, every pair returned by the (2 * SYMLEN - r)th TICK or a
later one is (0, 0), where r is RAMP, whatever the carrier was doing. -/
def Obligations.SilenceAfterKeyOff : Prop :=
  ∀ (n : Nat) (s : State), s.key = .stopped → 2 * 256 ≤ n + s.ramp.val →
    (ticks n s).iout = 0#16 ∧ (ticks n s).qout = 0#16 ∧ (ticks n s).phase = .phoff

/-- R155, R140: where the transmission is stopped, the carrier is off and the held segments are Z, as after reset, every
TICK returns (0, 0) and the state stays so. -/
def Obligations.QuietStaysQuiet : Prop :=
  ∀ (n : Nat) (s : State), s.key = .stopped → s.phase = .phoff → s.segi = .z → s.segq = .z →
    (0 < n → (ticks n s).iout = 0#16 ∧ (ticks n s).qout = 0#16) ∧
    (ticks n s).key = .stopped ∧ (ticks n s).phase = .phoff ∧ (ticks n s).segi = .z ∧ (ticks n s).segq = .z

/-- R174: RDSTAT answers STATUS and changes nothing. -/
def Obligations.RdstatReadsStatusOnly : Prop :=
  ∀ s : State, exec .rdstat s = .next { s with response := some (statusWord s) }

/-- R35: every field of STATUS, at its bits; QEMPTY and QFULL are never both 1. -/
def Obligations.StatusFieldsStandAtTheirBits : Prop :=
  ∀ s : State,
    (statusWord s).extractLsb' 0 1 = BitVec.ofBool (decide (s.qcnt.val = 0)) ∧
    (statusWord s).extractLsb' 1 1 = BitVec.ofBool (decide (s.qcnt.val = 26)) ∧
    (statusWord s).extractLsb' 2 1 = BitVec.ofBool s.qovf ∧
    (statusWord s).extractLsb' 3 1 = BitVec.ofBool s.tovr ∧
    (statusWord s).extractLsb' 4 1 = BitVec.ofBool s.illop ∧
    (statusWord s).extractLsb' 5 1 = BitVec.ofBool s.endm ∧
    (statusWord s).extractLsb' 6 2 =
      (match s.key with | .stopped => 0#2 | .starting => 1#2 | .running => 2#2) ∧
    (statusWord s).extractLsb' 8 3 =
      (match s.phase with | .ph0 => 0#3 | .ph90 => 1#3 | .ph180 => 2#3 | .ph270 => 3#3 | .phoff => 4#3) ∧
    ((statusWord s).extractLsb' 11 5).toNat = s.qcnt.val ∧
    (statusWord s).extractLsb' 16 16 = s.ovrcnt ∧
    (statusWord s).extractLsb' 0 2 ≠ 3#2

/-- R175: TICKOVR counts, saturating at 0xFFFF, sets TOVR, answers 0 and changes nothing else. -/
def Obligations.TickovrCountsAMissedTick : Prop :=
  ∀ s : State, exec .tickovr s = .next
    { s with ovrcnt := BitVec.ofNat 16 (min (s.ovrcnt.toNat + 1) 0xFFFF), tovr := true, response := some 0#32 }

/-- R162, R175: after n TICKOVRs OVRCNT is the old count plus n, or 65535. -/
def Obligations.OverrunCounterSaturates : Prop :=
  ∀ (n : Nat) (s : State),
    (overruns n s).ovrcnt.toNat = min (s.ovrcnt.toNat + n) 65535 ∧ ((overruns n s).tovr = true ↔ s.tovr = true ∨ 0 < n)

/-- R34, R200: no step but a reset event clears QOVF, TOVR or ILLOP or lowers OVRCNT; and a step that is not a reset event
sets a flag only as its rule says. -/
def Obligations.ErrorRecordsAreSticky : Prop :=
  ∀ s : State, s.inputs.head? ≠ some .reset → ∃ t, step s = .next t ∧
    (s.qovf = true → t.qovf = true) ∧ (s.tovr = true → t.tovr = true) ∧ (s.illop = true → t.illop = true) ∧
    s.ovrcnt.toNat ≤ t.ovrcnt.toNat ∧
    (t.qovf ≠ s.qovf → s.qcnt.val = 26 ∧ ∃ (b : Byte) (rest : List Input), s.inputs = .word (0x2#4 ++ b) :: rest) ∧
    (t.tovr ≠ s.tovr → ∃ rest, s.inputs = .word 0x600#12 :: rest) ∧
    (t.illop ≠ s.illop → ∃ w rest, s.inputs = .word w :: rest ∧ assigned w = false)

/-- R37: in states that differ at most in the diagnostics, in the waiting inputs and in the last response, every
instruction leaves states that differ at most in these, and answers alike unless it is RDSTAT. -/
def Obligations.DiagnosticsInfluenceNothing : Prop :=
  ∀ (i : Instr) (s t : State), sameButDiagnostics s t →
    ∃ s' t', exec i s = .next s' ∧ exec i t = .next t' ∧ sameButDiagnostics s' t' ∧
      ((∃ b, i = .push b) ∨ i = .tick ∨ i = .txstart ∨ i = .txstop ∨ i = .tickovr → s'.response = t'.response)

/-- R20: each item of the state is changed by its owner only. -/
def Obligations.OnlyTheOwnerWrites : Prop :=
  ∀ (i : Instr) (s : State), ∃ t, exec i s = .next t ∧
    ((∀ b, i ≠ .push b) → t.qbuf = s.qbuf ∧ t.qtail = s.qtail ∧ t.qovf = s.qovf) ∧
    (i ≠ .tick → t.qhead = s.qhead ∧ t.shift = s.shift ∧ t.endm = s.endm ∧ t.ramp = s.ramp ∧
      t.iout = s.iout ∧ t.qout = s.qout) ∧
    ((∀ b, i ≠ .push b) → i ≠ .tick → t.qcnt = s.qcnt) ∧
    (i ≠ .txstart → i ≠ .txstop → i ≠ .tick → t.key = s.key) ∧
    (i ≠ .tick → i ≠ .nochg → i ≠ .rev180 → i ≠ .coff → i ≠ .con →
      t.phase = s.phase ∧ t.segi = s.segi ∧ t.segq = s.segq) ∧
    (i ≠ .tickovr → t.ovrcnt = s.ovrcnt ∧ t.tovr = s.tovr) ∧
    t.illop = s.illop ∧ t.inputs = s.inputs

/-! ## The symbols and the tables -/

/-- R130, R131: the four symbols write SEGI, SEGQ and PHASE as the twenty entries of the table say, and nothing else.
(A symbol runs inside a TICK only, which writes the response; see BoundaryTickRunsTheSymbolOfNextSym.) -/
def Obligations.SymbolsFollowTheTransitionTable : Prop :=
  ∀ s : State,
    exec .nochg s = .next
      (match s.phase with
       | .ph0 => { s with segi := .p, segq := .p, phase := .ph0 }
       | .ph90 => { s with segi := .m, segq := .p, phase := .ph90 }
       | .ph180 => { s with segi := .m, segq := .m, phase := .ph180 }
       | .ph270 => { s with segi := .p, segq := .m, phase := .ph270 }
       | .phoff => { s with segi := .z, segq := .z, phase := .phoff }) ∧
    exec .rev180 s = .next
      (match s.phase with
       | .ph0 => { s with segi := .pm, segq := .pm, phase := .ph180 }
       | .ph90 => { s with segi := .mp, segq := .pm, phase := .ph270 }
       | .ph180 => { s with segi := .mp, segq := .mp, phase := .ph0 }
       | .ph270 => { s with segi := .pm, segq := .mp, phase := .ph90 }
       | .phoff => { s with segi := .z, segq := .z, phase := .phoff }) ∧
    exec .coff s = .next
      (match s.phase with
       | .ph0 => { s with segi := .pz, segq := .pz, phase := .phoff }
       | .ph90 => { s with segi := .mz, segq := .pz, phase := .phoff }
       | .ph180 => { s with segi := .mz, segq := .mz, phase := .phoff }
       | .ph270 => { s with segi := .pz, segq := .mz, phase := .phoff }
       | .phoff => { s with segi := .z, segq := .z, phase := .phoff }) ∧
    exec .con s = .next
      (match s.phase with
       | .ph0 => { s with segi := .p, segq := .p, phase := .ph0 }
       | .ph90 => { s with segi := .m, segq := .p, phase := .ph90 }
       | .ph180 => { s with segi := .m, segq := .m, phase := .ph180 }
       | .ph270 => { s with segi := .p, segq := .m, phase := .ph270 }
       | .phoff => { s with segi := .zp, segq := .zp, phase := .ph0 })

/-- R133: how each entry of the table is made. The next phase is the same phase for NOCHG, the opposite one for REV180,
PHOFF for COFF, and for CON the same phase if the carrier is on and PH0 if it is off, where at PHOFF the two data symbols
leave PHOFF; and each channel's segment is the one segment that runs from its rest level at the present phase to its rest
level at the next. -/
def Obligations.TransitionEntriesJoinRestLevels : Prop :=
  (∀ p : Phase, (transTable .nochg p).2.2 = p ∧ (transTable .coff p).2.2 = .phoff ∧
    (p ≠ .phoff → (transTable .con p).2.2 = p)) ∧
  (transTable .rev180 .ph0).2.2 = .ph180 ∧ (transTable .rev180 .ph180).2.2 = .ph0 ∧
  (transTable .rev180 .ph90).2.2 = .ph270 ∧ (transTable .rev180 .ph270).2.2 = .ph90 ∧
  (transTable .rev180 .phoff).2.2 = .phoff ∧ (transTable .con .phoff).2.2 = .ph0 ∧
  (∀ (y : Symbol) (p : Phase) (g : Seg),
    (g = (transTable y p).1 ↔ segStart g = restI p ∧ segEnd g = restI (transTable y p).2.2) ∧
    (g = (transTable y p).2.1 ↔ segStart g = restQ p ∧ segEnd g = restQ (transTable y p).2.2))

/-- R134: the last sample of a selected segment is the level of the phase it leads to and the first sample of whichever
segment the next symbol selects, on each channel. -/
def Obligations.SelectedSegmentsJoin : Prop :=
  ∀ (y y' : Symbol) (p : Phase),
    shape (transTable y p).1 ⟨255, by decide⟩ = levelSample (restI (transTable y p).2.2) ∧
    shape (transTable y' (transTable y p).2.2).1 ⟨0, by decide⟩ = levelSample (restI (transTable y p).2.2) ∧
    shape (transTable y p).2.1 ⟨255, by decide⟩ = levelSample (restQ (transTable y p).2.2) ∧
    shape (transTable y' (transTable y p).2.2).2.1 ⟨0, by decide⟩ = levelSample (restQ (transTable y p).2.2)

/-- R94, R95 of the default instance of R97: end points, the three constant segments, and the range, where each sample is
the integer of the list without wrapping. -/
def Obligations.DefaultShapeMeetsItsConstraints : Prop :=
  ∀ g : Seg, shapeEndpoints shapeInt g = true ∧ shapeInRange shapeInt g = true ∧
    ∀ k : Fin 256, (shape g k).toInt = shapeInt g k.val

/-- R141: while RUNNING with a carrier on one of the two reachable phases, a boundary changes the phase to the opposite
one exactly when its symbol is REV180, and keeps it exactly when it is NOCHG. -/
def Obligations.DataSymbolsAreDifferential : Prop :=
  ∀ s : State, s.key = .running → s.phase = .ph0 ∨ s.phase = .ph180 →
    ((nextSym s).1 = .rev180 ∨ (nextSym s).1 = .nochg) ∧
    ((nextSym s).1 = .rev180 ↔ (symbolStep s).phase ≠ s.phase) ∧
    ((symbolStep s).phase = .ph0 ∨ (symbolStep s).phase = .ph180)

/-! ## Invariants -/

/-- R41 to R45, R193: the invariants hold at reset. (One field of `Invariants` is about the model's own representation: the
canonical form of QBUF, assumption 5.) -/
def Obligations.InvariantsHoldAtReset : Prop := Invariants State.reset

/-- R41 to R45, R193: every step keeps the invariants: the queue's indices, the canonical form of its storage, ENDM and
SHIFT, KEY and PHASE, the reachable phases and the equal channels, continuity, and the overrun record. -/
def Obligations.EveryStepKeepsTheInvariants : Prop :=
  ∀ s t : State, Invariants s → step s = .next t → Invariants t

/-! ## Any configuration

The statements above are about this hardware, the default values of R8. These are about the block in every configuration that
meets the constraints of R8, R94 and R95, which is a parameter of the step (R38): `c` with its sizes, ROMs and SHAPE. -/

/-- R8, R38: this hardware is the step of the block in the configuration that takes the default of every parameter; VARICODE
and IDLE_CHAR are open (assumptions 3 and 4). -/
def Obligations.HardwareIsOneConfiguration : Prop :=
  (∀ (i : Instr) (s : State), exec i s = execOf i s) ∧
  (∀ s : State, step s = stepOf Config.hardware s) ∧
  State.reset = State.Of.reset Config.hardware ∧
  Config.hardware.symlen = 256 ∧ Config.hardware.srw = 20 ∧ Config.hardware.qcap = 26 ∧ Config.hardware.sampw = 16 ∧
  Config.hardware.amp = 16384 ∧ Config.hardware.bias = 0 ∧ Config.hardware.params.fallbackCode = 0x80000#20 ∧
  Config.hardware.params.ovrw = 16 ∧ Config.hardware.params.fs = 8000 ∧
  ∀ (g : Seg) (k : Fin 256), Config.hardware.sample g k = shape g k

/-- R190: in every configuration and every state, every step and every instruction has a next state. -/
def Obligations.EveryConfigurationCompletes : Prop :=
  ∀ c : Configuration,
    (∀ s : State.Of c, ∃ t, stepOf c s = .next t) ∧ ∀ (i : Instr) (s : State.Of c), ∃ t, execOf i s = .next t

/-- R41 to R45, R47, R193: in every configuration the reset state has the invariants, and STATUS reads 0x00000401. (One field
of `Invariants` is about the model's own representation, assumption 5.) -/
def Obligations.EveryConfigurationStartsInTheInvariants : Prop :=
  ∀ c : Configuration, Invariants (State.Of.reset c) ∧ statusWord (State.Of.reset c) = 0x00000401#32

/-- R41 to R45, R193: in every configuration every step keeps the invariants. (One field of `Invariants` is about the
model's own representation, assumption 5.) -/
def Obligations.EveryConfigurationKeepsTheInvariants : Prop :=
  ∀ (c : Configuration) (s t : State.Of c), Invariants s → stepOf c s = .next t → Invariants t

/-- R150, R84: the whole effect of TICK in every configuration. The pair is SHAPE at offset RAMP, whatever BIAS is; the
response holds each sample sign-extended to 16 bits; the boundary is at SYMLEN. -/
def Obligations.TickInEveryConfiguration : Prop :=
  ∀ (c : Configuration) (s : State.Of c),
    (∀ h : s.ramp.val + 1 < c.symlen,
      execOf .tick s = .next
        { s with
          iout := c.sample s.segi s.ramp, qout := c.sample s.segq s.ramp, ramp := ⟨s.ramp.val + 1, h⟩,
          response := some ((c.sample s.segq s.ramp).signExtend 16 ++ (c.sample s.segi s.ramp).signExtend 16) }) ∧
    (s.ramp.val + 1 = c.symlen →
      execOf .tick s = .next
        (let r := nextSym
          { s with iout := c.sample s.segi s.ramp, qout := c.sample s.segq s.ramp, ramp := ⟨0, c.symlen_pos⟩ }
         { r.2 with
           segi := (transTable r.1 r.2.phase).1, segq := (transTable r.1 r.2.phase).2.1,
           phase := (transTable r.1 r.2.phase).2.2,
           response := some ((c.sample s.segq s.ramp).signExtend 16 ++ (c.sample s.segi s.ramp).signExtend 16) }))

/-- R170, R171: the whole effect of PUSH in every configuration: accepted below QCAP, rejected at QCAP. -/
def Obligations.PushInEveryConfiguration : Prop :=
  ∀ (c : Configuration) (b : Byte) (s : State.Of c),
    (∀ h : s.qcnt.val < c.qcap,
      execOf (.push b) s = .next
        { s with
          qbuf := Memory.write s.qbuf s.qtail.val b,
          qtail := ⟨(s.qtail.val + 1) % c.qcap, Nat.mod_lt _ c.qcap_pos⟩,
          qcnt := ⟨s.qcnt.val + 1, Nat.succ_lt_succ h⟩,
          response := some 1#32 }) ∧
    (s.qcnt.val = c.qcap → execOf (.push b) s = .next { s with qovf := true, response := some 0#32 })

/-- R110 to R117: NEXTSYM in every configuration, each leaf with the whole state it leaves. A word that one shift empties had
its top bit set. The last two leaves are for every ENDM; with ENDM = 1, which R42 shuts out, R113 lets a model take the same
path (assumption 8). -/
def Obligations.NextSymInEveryConfiguration : Prop :=
  ∀ (c : Configuration) (s : State.Of c),
    (s.key = .stopped → nextSym s = (.coff, s)) ∧
    (s.key = .starting → nextSym s = (.con, { s with key := .running })) ∧
    (s.key = .running → s.shift = 0#c.srw → s.endm = true → nextSym s = (.rev180, { s with endm := false })) ∧
    (s.key = .running → s.shift = 0#c.srw → s.endm = false → s.qcnt.val = 0 →
      nextSym s = (.rev180, { s with shift := c.code c.idleChar })) ∧
    (s.key = .running → s.shift = 0#c.srw → s.endm = false → 0 < s.qcnt.val →
      nextSym s = (.rev180,
        { s with
          shift := c.code (Memory.read s.qbuf s.qhead.val),
          qhead := ⟨(s.qhead.val + 1) % c.qcap, Nat.mod_lt _ c.qcap_pos⟩,
          qcnt := ⟨s.qcnt.val - 1, by omega⟩ })) ∧
    (s.key = .running → s.shift ≠ 0#c.srw → s.shift <<< 1 = 0#c.srw →
      s.shift.msb = true ∧ nextSym s = (.nochg, { s with shift := 0#c.srw, endm := true })) ∧
    (s.key = .running → s.shift <<< 1 ≠ 0#c.srw →
      nextSym s = (if s.shift.msb then .nochg else .rev180, { s with shift := s.shift <<< 1 }))

/-- R120, R121, R122: in every configuration, whatever its table, with nothing pending the next character costs width + 2
symbols, the lead-in, its code symbols and the end-marker, or the lead-in alone where its code is empty; afterwards nothing is
pending and exactly that character has been popped. -/
def Obligations.CharacterCostsItsSymbolsInEveryConfiguration : Prop :=
  ∀ (c : Configuration) (s : State.Of c), s.key = .running → s.shift = 0#c.srw → s.endm = false →
    nextSyms (if c.code (pop s).1 = 0#c.srw then 1 else codeWidth (c.code (pop s).1) + 2) s =
      (if c.code (pop s).1 = 0#c.srw then [Symbol.rev180]
        else [Symbol.rev180] ++ (codeBits (c.code (pop s).1)).map symbolOfBit ++ [Symbol.rev180],
       { (pop s).2 with shift := 0#c.srw, endm := false })

/-- R177: the queue is a FIFO in every configuration: over any sequence of instructions, what was queued followed by what is
accepted is what is taken followed by what is left. -/
def Obligations.QueueIsFifoInEveryConfiguration : Prop :=
  ∀ (c : Configuration) (is : List Instr) (s : State.Of c),
    s.qtail.val = (s.qhead.val + s.qcnt.val) % c.qcap → Memory.wf s.qbuf = true →
    queueContent s ++ putByAll is s = takenByAll is s ++ queueContent (afterAll is s)

/-- R154, for TICKs with no other operation between them, in every configuration: TICK number j * SYMLEN + k + 1 from a symbol
boundary returns offset k of the two segments selected after j symbol steps. -/
def Obligations.SampleStreamInEveryConfiguration : Prop :=
  ∀ (c : Configuration) (s : State.Of c) (j k : Nat) (hk : k < c.symlen), s.ramp.val = 0 →
    (after .tick (ticks (j * c.symlen + k) s)).iout = c.sample (symbolSteps j s).segi ⟨k, hk⟩ ∧
    (after .tick (ticks (j * c.symlen + k) s)).qout = c.sample (symbolSteps j s).segq ⟨k, hk⟩

/-- R134, R156, for every SHAPE that meets R94: under the invariants, the pair returned by a boundary TICK is the pair
returned by the next TICK. -/
def Obligations.StreamIsContinuousInEveryConfiguration : Prop :=
  ∀ (c : Configuration) (s : State.Of c), Invariants s → s.ramp.val + 1 = c.symlen →
    (after .tick (after .tick s)).iout = (after .tick s).iout ∧
    (after .tick (after .tick s)).qout = (after .tick s).qout

/-- R157, its first half, for every SHAPE that meets R95 and every width of a sample: in every state both samples of a TICK
lie between -AMP and AMP. -/
def Obligations.SamplesStayInRangeInEveryConfiguration : Prop :=
  ∀ (c : Configuration) (s : State.Of c), ∃ t, execOf .tick s = .next t ∧
    -(c.amp : Int) ≤ t.iout.toInt ∧ t.iout.toInt ≤ c.amp ∧ -(c.amp : Int) ≤ t.qout.toInt ∧ t.qout.toInt ≤ c.amp

/-- R223, R140, in every configuration: from a state in which the transmission is stopped, every pair returned by the
(2 * SYMLEN - r)th TICK or a later one is (0, 0), where r is RAMP, if no other operation comes between. -/
def Obligations.SilenceAfterKeyOffInEveryConfiguration : Prop :=
  ∀ (c : Configuration) (n : Nat) (s : State.Of c), s.key = .stopped → 2 * c.symlen ≤ n + s.ramp.val →
    (ticks n s).iout = 0#c.sampw ∧ (ticks n s).qout = 0#c.sampw ∧ (ticks n s).phase = .phoff

/-! ## The port -/

/-- R86, R130, R150: a symbol is consumed inside the TICK that produced it. For a TICK presented at a symbol boundary the step
is the meaning of the symbol that NEXTSYM returned, run at the state NEXTSYM left, and the response word beside it. -/
def Obligations.BoundaryTickRunsTheSymbolOfNextSym : Prop :=
  ∀ (s : State) (rest : List Input), s.inputs = .word 0x100#12 :: rest → s.ramp.val + 1 = 256 →
    ∃ (i : Instr) (t : State),
      (let r := nextSym
        { s with
          inputs := rest, iout := shape s.segi s.ramp, qout := shape s.segq s.ramp, ramp := ⟨0, by decide⟩ }
       decode (.sym (symbolCode r.1)) = .instr i ∧ exec i r.2 = .next t) ∧
      step s = .next { t with response := some (shape s.segq s.ramp ++ shape s.segi s.ramp) }

/-- R20, R233: the port is the only way in. In every configuration and from every state a step that is not a reset event
changes an item of the state only where the operation word presented is that of the item's owner in the table of R20, where
NEXTSYM, POP and RESOLVE run inside a TICK at a symbol boundary, and takes that word from the port. (That the port's words
stand in the list `inputs` is the model's choice, assumption 1.) -/
def Obligations.ThePortIsTheOnlyWayIn : Prop :=
  ∀ (c : Configuration) (s : State.Of c), s.inputs.head? ≠ some .reset → ∃ t, stepOf c s = .next t ∧
    t.inputs = s.inputs.tail ∧
    (t.segi ≠ s.segi ∨ t.segq ≠ s.segq ∨ t.phase ≠ s.phase ∨ t.shift ≠ s.shift ∨ t.endm ≠ s.endm ∨ t.qhead ≠ s.qhead →
      s.inputs.head? = some (.word 0x100#12) ∧ s.ramp.val + 1 = c.symlen) ∧
    (t.ramp ≠ s.ramp ∨ t.iout ≠ s.iout ∨ t.qout ≠ s.qout → s.inputs.head? = some (.word 0x100#12)) ∧
    (t.qbuf ≠ s.qbuf ∨ t.qtail ≠ s.qtail ∨ t.qovf ≠ s.qovf → ∃ b : Byte, s.inputs.head? = some (.word (0x2#4 ++ b))) ∧
    (t.qcnt ≠ s.qcnt → (∃ b : Byte, s.inputs.head? = some (.word (0x2#4 ++ b))) ∨
      s.inputs.head? = some (.word 0x100#12) ∧ s.ramp.val + 1 = c.symlen) ∧
    (t.key ≠ s.key → s.inputs.head? = some (.word 0x300#12) ∨ s.inputs.head? = some (.word 0x400#12) ∨
      s.inputs.head? = some (.word 0x100#12) ∧ s.ramp.val + 1 = c.symlen) ∧
    (t.ovrcnt ≠ s.ovrcnt ∨ t.tovr ≠ s.tovr → s.inputs.head? = some (.word 0x600#12)) ∧
    (t.illop ≠ s.illop → ∃ w, s.inputs.head? = some (.word w) ∧ assigned w = false)
end

