-- ==== Sys2Proof/Laws/Bits.lean ====
section
/-! SUPPORT. Fields of a concatenation: what a slice of `x ++ y` is when it lies in the low or in the high part. -/

namespace Sys2Proof

/-- The low part, whole. -/
theorem slice_append_low (n m : Nat) (x : BitVec n) (y : BitVec m) : (x ++ y).extractLsb' 0 m = y := by
  ext k hk
  rw [BitVec.getElem_extractLsb', BitVec.getLsbD_append]
  simp [hk]

/-- A slice that lies in the high part. -/
theorem slice_append_high (n m : Nat) (x : BitVec n) (y : BitVec m) (j k l : Nat) (h : j = m + k) :
    (x ++ y).extractLsb' j l = x.extractLsb' k l := by
  subst h
  ext i hi
  rw [BitVec.getElem_extractLsb', BitVec.getElem_extractLsb', BitVec.getLsbD_append, if_neg (by omega)]
  congr 1
  omega

end Sys2Proof
end

