-- ==== Sys2Proof/Laws/Memory.lean ====
section
/-! SUPPORT. The byte memory: reading after writing, and that a write keeps the canonical form and the bounds. -/

namespace Sys2Proof.Machine

@[simp] theorem Memory.read_nil (a : Nat) : Memory.read [] a = Memory.unlisted := rfl

theorem Memory.read_cons (k : Nat) (v : Byte) (r : Memory) (a : Nat) :
    Memory.read ((k, v) :: r) a = if k = a then v else Memory.read r a := rfl

/-- A memory whose addresses are all above `a` reads at `a` as an unlisted address does. -/
theorem Memory.read_below (m : Memory) (lo a : Nat) (h : Memory.wfAbove lo m = true) (ha : a < lo) :
    Memory.read m a = Memory.unlisted := by
  induction m generalizing lo with
  | nil => rfl
  | cons c r ih =>
    obtain ⟨k, v⟩ := c
    simp only [Memory.wfAbove, Bool.and_eq_true, decide_eq_true_eq] at h
    rw [Memory.read_cons, if_neg (by omega)]
    exact ih (k + 1) h.2 (by omega)

theorem Memory.read_consCell_same (m : Memory) (a : Nat) (b : Byte) (h : Memory.wfAbove (a + 1) m = true) :
    Memory.read (Memory.consCell a b m) a = b := by
  unfold Memory.consCell
  split
  · next hb => rw [hb]; exact Memory.read_below m (a + 1) a h (by omega)
  · simp [Memory.read_cons]

theorem Memory.read_consCell_other (m : Memory) (a c : Nat) (b : Byte) (h : c ≠ a) :
    Memory.read (Memory.consCell a b m) c = Memory.read m c := by
  unfold Memory.consCell
  split
  · rfl
  · rw [Memory.read_cons, if_neg (Ne.symm h)]

/-- A bound on the addresses may be lowered. -/
theorem Memory.wfAbove_mono (m : Memory) (lo lo' : Nat) (h : Memory.wfAbove lo m = true) (hl : lo' ≤ lo) :
    Memory.wfAbove lo' m = true := by
  cases m with
  | nil => rfl
  | cons c r =>
    simp only [Memory.wfAbove, Bool.and_eq_true, decide_eq_true_eq] at h ⊢
    exact ⟨⟨by omega, h.1.2⟩, h.2⟩

theorem Memory.wfAbove_consCell (m : Memory) (lo a : Nat) (b : Byte) (hl : lo ≤ a)
    (h : Memory.wfAbove (a + 1) m = true) : Memory.wfAbove lo (Memory.consCell a b m) = true := by
  unfold Memory.consCell
  split
  · exact Memory.wfAbove_mono m (a + 1) lo h (by omega)
  · next hb => simp [Memory.wfAbove, hl, hb, h]

theorem Memory.wfAbove_write (m : Memory) (lo a : Nat) (b : Byte) (hl : lo ≤ a)
    (h : Memory.wfAbove lo m = true) : Memory.wfAbove lo (Memory.write m a b) = true := by
  induction m generalizing lo with
  | nil => exact Memory.wfAbove_consCell [] lo a b hl rfl
  | cons c r ih =>
    obtain ⟨k, v⟩ := c
    have h' := h
    simp only [Memory.wfAbove, Bool.and_eq_true, decide_eq_true_eq] at h'
    unfold Memory.write
    split
    · refine Memory.wfAbove_consCell _ lo a b hl ?_
      simp only [Memory.wfAbove, Bool.and_eq_true, decide_eq_true_eq]
      exact ⟨⟨by omega, h'.1.2⟩, h'.2⟩
    · split
      · next hk => exact Memory.wfAbove_consCell r lo a b hl (by rw [hk]; exact h'.2)
      · simp only [Memory.wfAbove, Bool.and_eq_true, decide_eq_true_eq]
        exact ⟨h'.1, ih (k + 1) (by omega) h'.2⟩

/-- A write keeps the canonical form. -/
theorem Memory.wf_write (m : Memory) (a : Nat) (b : Byte) (h : Memory.wf m = true) :
    Memory.wf (Memory.write m a b) = true :=
  Memory.wfAbove_write m 0 a b (Nat.zero_le _) h

/-- The memory of the reset state is in its canonical form. -/
theorem Memory.wf_reset : Memory.wf State.reset.qbuf = true := rfl

theorem Memory.read_write_same_above (m : Memory) (lo a : Nat) (b : Byte) (h : Memory.wfAbove lo m = true) :
    Memory.read (Memory.write m a b) a = b := by
  induction m generalizing lo with
  | nil => exact Memory.read_consCell_same [] a b rfl
  | cons c r ih =>
    obtain ⟨k, v⟩ := c
    simp only [Memory.wfAbove, Bool.and_eq_true, decide_eq_true_eq] at h
    unfold Memory.write
    split
    · refine Memory.read_consCell_same _ a b ?_
      simp only [Memory.wfAbove, Bool.and_eq_true, decide_eq_true_eq]
      exact ⟨⟨by omega, h.1.2⟩, h.2⟩
    · split
      · next hk => exact Memory.read_consCell_same r a b (by rw [hk]; exact h.2)
      · rw [Memory.read_cons, if_neg (by omega)]
        exact ih (k + 1) h.2

/-- A read after a write to the same address gives the byte written. -/
theorem Memory.read_write_same (m : Memory) (a : Nat) (b : Byte) (h : Memory.wf m = true) :
    Memory.read (Memory.write m a b) a = b :=
  Memory.read_write_same_above m 0 a b h

/-- A write leaves every other address alone. -/
theorem Memory.read_write_other (m : Memory) (a c : Nat) (b : Byte) (h : c ≠ a) :
    Memory.read (Memory.write m a b) c = Memory.read m c := by
  induction m with
  | nil => exact Memory.read_consCell_other [] a c b h
  | cons e r ih =>
    obtain ⟨k, v⟩ := e
    unfold Memory.write
    split
    · exact Memory.read_consCell_other _ a c b h
    · split
      · next hk =>
        rw [Memory.read_consCell_other r a c b h, Memory.read_cons, if_neg (by omega)]
      · rw [Memory.read_cons, Memory.read_cons, ih]

theorem Memory.within_consCell (n : Nat) (m : Memory) (a : Nat) (b : Byte) (ha : a < n)
    (h : Memory.within n m = true) : Memory.within n (Memory.consCell a b m) = true := by
  unfold Memory.consCell
  split
  · exact h
  · simpa [Memory.within, ha] using h

/-- A write below `n` keeps every address below `n`. -/
theorem Memory.within_write (n : Nat) (m : Memory) (a : Nat) (b : Byte) (ha : a < n)
    (h : Memory.within n m = true) : Memory.within n (Memory.write m a b) = true := by
  induction m with
  | nil => exact Memory.within_consCell n [] a b ha rfl
  | cons c r ih =>
    obtain ⟨k, v⟩ := c
    have hr : Memory.within n r = true := by
      simp only [Memory.within, List.all_cons, Bool.and_eq_true] at h ⊢
      exact h.2
    unfold Memory.write
    split
    · exact Memory.within_consCell n _ a b ha h
    · split
      · exact Memory.within_consCell n r a b ha hr
      · simp only [Memory.within, List.all_cons, Bool.and_eq_true] at h ⊢
        exact ⟨h.1, ih hr⟩

end Sys2Proof.Machine
end

