-- ==== Sys2Proof/Laws/PerInstr.lean ====
section
/-! SUPPORT. A statement about each instruction as syntax: its word is the word of its own row of spec/opcode_table.json,
under the row's mask and in the row's format, and of no other row. -/

namespace Sys2Proof.Laws

/-- A row of spec/opcode_table.json: format CMD with a 12-bit match and mask (R81), or format SYM with a 2-bit code
(R86). -/
inductive OpRow where
  | cmd (mtch mask : OpWord)
  | sym (code : SymCode)
deriving DecidableEq, Repr

/-- The ten rows of the table. -/
def opRows : List OpRow :=
  [ .cmd 0x100#12 0xFFF#12, .cmd 0x200#12 0xF00#12, .cmd 0x300#12 0xFFF#12, .cmd 0x400#12 0xFFF#12,
    .cmd 0x500#12 0xFFF#12, .cmd 0x600#12 0xFFF#12, .sym 0#2, .sym 1#2, .sym 2#2, .sym 3#2 ]

/-- A word is a word of a row. -/
def OpRow.fits : OpRow → InstrWord → Bool
  | .cmd mtch mask, .cmd w => w &&& mask == mtch
  | .sym code, .sym y => y == code
  | .cmd _ _, .sym _ => false
  | .sym _, .cmd _ => false

/-- The place of an instruction's row in the table. -/
def rowOf : Instr → Nat
  | .tick => 0
  | .push _ => 1
  | .txstart => 2
  | .txstop => 3
  | .rdstat => 4
  | .tickovr => 5
  | .nochg => 6
  | .rev180 => 7
  | .coff => 8
  | .con => 9

namespace TableRow

/-- The word of an instruction fits its own row and no other row of the table (R81, R86). -/
def Statement (i : Instr) : Prop :=
  opRows.map (fun r => r.fits (encode i)) = (List.range 10).map fun k => k == rowOf i

theorem tick : Statement .tick := by unfold Statement; decide

theorem push (b : Byte) : Statement (.push b) := by
  have h : ∀ c : Byte, Statement (.push c) := by unfold Statement; decide +kernel
  exact h b

theorem txstart : Statement .txstart := by unfold Statement; decide

theorem txstop : Statement .txstop := by unfold Statement; decide

theorem rdstat : Statement .rdstat := by unfold Statement; decide

theorem tickovr : Statement .tickovr := by unfold Statement; decide

theorem nochg : Statement .nochg := by unfold Statement; decide

theorem rev180 : Statement .rev180 := by unfold Statement; decide

theorem coff : Statement .coff := by unfold Statement; decide

theorem con : Statement .con := by unfold Statement; decide

end TableRow

end Sys2Proof.Laws
end

