-- ==== Sys2Proof/Laws/State.lean ====
section
/-! SUPPORT. One lemma per field of State and per named update, so that no later proof unfolds a record update. -/

namespace Sys2Proof.Machine

variable {c : Configuration} (s : State.Of c)

@[simp] theorem State.Of.setOut_qbuf (i q : BitVec c.sampw) : (s.setOut i q).qbuf = s.qbuf := rfl
@[simp] theorem State.Of.setOut_qhead (i q : BitVec c.sampw) : (s.setOut i q).qhead = s.qhead := rfl
@[simp] theorem State.Of.setOut_qtail (i q : BitVec c.sampw) : (s.setOut i q).qtail = s.qtail := rfl
@[simp] theorem State.Of.setOut_qcnt (i q : BitVec c.sampw) : (s.setOut i q).qcnt = s.qcnt := rfl
@[simp] theorem State.Of.setOut_shift (i q : BitVec c.sampw) : (s.setOut i q).shift = s.shift := rfl
@[simp] theorem State.Of.setOut_endm (i q : BitVec c.sampw) : (s.setOut i q).endm = s.endm := rfl
@[simp] theorem State.Of.setOut_key (i q : BitVec c.sampw) : (s.setOut i q).key = s.key := rfl
@[simp] theorem State.Of.setOut_phase (i q : BitVec c.sampw) : (s.setOut i q).phase = s.phase := rfl
@[simp] theorem State.Of.setOut_segi (i q : BitVec c.sampw) : (s.setOut i q).segi = s.segi := rfl
@[simp] theorem State.Of.setOut_segq (i q : BitVec c.sampw) : (s.setOut i q).segq = s.segq := rfl
@[simp] theorem State.Of.setOut_ramp (i q : BitVec c.sampw) : (s.setOut i q).ramp = s.ramp := rfl
@[simp] theorem State.Of.setOut_iout (i q : BitVec c.sampw) : (s.setOut i q).iout = i := rfl
@[simp] theorem State.Of.setOut_qout (i q : BitVec c.sampw) : (s.setOut i q).qout = q := rfl
@[simp] theorem State.Of.setOut_ovrcnt (i q : BitVec c.sampw) : (s.setOut i q).ovrcnt = s.ovrcnt := rfl
@[simp] theorem State.Of.setOut_qovf (i q : BitVec c.sampw) : (s.setOut i q).qovf = s.qovf := rfl
@[simp] theorem State.Of.setOut_tovr (i q : BitVec c.sampw) : (s.setOut i q).tovr = s.tovr := rfl
@[simp] theorem State.Of.setOut_illop (i q : BitVec c.sampw) : (s.setOut i q).illop = s.illop := rfl
@[simp] theorem State.Of.setOut_inputs (i q : BitVec c.sampw) : (s.setOut i q).inputs = s.inputs := rfl
@[simp] theorem State.Of.setOut_response (i q : BitVec c.sampw) : (s.setOut i q).response = s.response := rfl

@[simp] theorem State.Of.setRamp_qbuf (k : Fin c.symlen) : (s.setRamp k).qbuf = s.qbuf := rfl
@[simp] theorem State.Of.setRamp_qhead (k : Fin c.symlen) : (s.setRamp k).qhead = s.qhead := rfl
@[simp] theorem State.Of.setRamp_qtail (k : Fin c.symlen) : (s.setRamp k).qtail = s.qtail := rfl
@[simp] theorem State.Of.setRamp_qcnt (k : Fin c.symlen) : (s.setRamp k).qcnt = s.qcnt := rfl
@[simp] theorem State.Of.setRamp_shift (k : Fin c.symlen) : (s.setRamp k).shift = s.shift := rfl
@[simp] theorem State.Of.setRamp_endm (k : Fin c.symlen) : (s.setRamp k).endm = s.endm := rfl
@[simp] theorem State.Of.setRamp_key (k : Fin c.symlen) : (s.setRamp k).key = s.key := rfl
@[simp] theorem State.Of.setRamp_phase (k : Fin c.symlen) : (s.setRamp k).phase = s.phase := rfl
@[simp] theorem State.Of.setRamp_segi (k : Fin c.symlen) : (s.setRamp k).segi = s.segi := rfl
@[simp] theorem State.Of.setRamp_segq (k : Fin c.symlen) : (s.setRamp k).segq = s.segq := rfl
@[simp] theorem State.Of.setRamp_ramp (k : Fin c.symlen) : (s.setRamp k).ramp = k := rfl
@[simp] theorem State.Of.setRamp_iout (k : Fin c.symlen) : (s.setRamp k).iout = s.iout := rfl
@[simp] theorem State.Of.setRamp_qout (k : Fin c.symlen) : (s.setRamp k).qout = s.qout := rfl
@[simp] theorem State.Of.setRamp_ovrcnt (k : Fin c.symlen) : (s.setRamp k).ovrcnt = s.ovrcnt := rfl
@[simp] theorem State.Of.setRamp_qovf (k : Fin c.symlen) : (s.setRamp k).qovf = s.qovf := rfl
@[simp] theorem State.Of.setRamp_tovr (k : Fin c.symlen) : (s.setRamp k).tovr = s.tovr := rfl
@[simp] theorem State.Of.setRamp_illop (k : Fin c.symlen) : (s.setRamp k).illop = s.illop := rfl
@[simp] theorem State.Of.setRamp_inputs (k : Fin c.symlen) : (s.setRamp k).inputs = s.inputs := rfl
@[simp] theorem State.Of.setRamp_response (k : Fin c.symlen) : (s.setRamp k).response = s.response := rfl

@[simp] theorem State.Of.setKey_qbuf (k : Key) : (s.setKey k).qbuf = s.qbuf := rfl
@[simp] theorem State.Of.setKey_qhead (k : Key) : (s.setKey k).qhead = s.qhead := rfl
@[simp] theorem State.Of.setKey_qtail (k : Key) : (s.setKey k).qtail = s.qtail := rfl
@[simp] theorem State.Of.setKey_qcnt (k : Key) : (s.setKey k).qcnt = s.qcnt := rfl
@[simp] theorem State.Of.setKey_shift (k : Key) : (s.setKey k).shift = s.shift := rfl
@[simp] theorem State.Of.setKey_endm (k : Key) : (s.setKey k).endm = s.endm := rfl
@[simp] theorem State.Of.setKey_key (k : Key) : (s.setKey k).key = k := rfl
@[simp] theorem State.Of.setKey_phase (k : Key) : (s.setKey k).phase = s.phase := rfl
@[simp] theorem State.Of.setKey_segi (k : Key) : (s.setKey k).segi = s.segi := rfl
@[simp] theorem State.Of.setKey_segq (k : Key) : (s.setKey k).segq = s.segq := rfl
@[simp] theorem State.Of.setKey_ramp (k : Key) : (s.setKey k).ramp = s.ramp := rfl
@[simp] theorem State.Of.setKey_iout (k : Key) : (s.setKey k).iout = s.iout := rfl
@[simp] theorem State.Of.setKey_qout (k : Key) : (s.setKey k).qout = s.qout := rfl
@[simp] theorem State.Of.setKey_ovrcnt (k : Key) : (s.setKey k).ovrcnt = s.ovrcnt := rfl
@[simp] theorem State.Of.setKey_qovf (k : Key) : (s.setKey k).qovf = s.qovf := rfl
@[simp] theorem State.Of.setKey_tovr (k : Key) : (s.setKey k).tovr = s.tovr := rfl
@[simp] theorem State.Of.setKey_illop (k : Key) : (s.setKey k).illop = s.illop := rfl
@[simp] theorem State.Of.setKey_inputs (k : Key) : (s.setKey k).inputs = s.inputs := rfl
@[simp] theorem State.Of.setKey_response (k : Key) : (s.setKey k).response = s.response := rfl

@[simp] theorem State.Of.setShift_qbuf (e : BitVec c.srw) : (s.setShift e).qbuf = s.qbuf := rfl
@[simp] theorem State.Of.setShift_qhead (e : BitVec c.srw) : (s.setShift e).qhead = s.qhead := rfl
@[simp] theorem State.Of.setShift_qtail (e : BitVec c.srw) : (s.setShift e).qtail = s.qtail := rfl
@[simp] theorem State.Of.setShift_qcnt (e : BitVec c.srw) : (s.setShift e).qcnt = s.qcnt := rfl
@[simp] theorem State.Of.setShift_shift (e : BitVec c.srw) : (s.setShift e).shift = e := rfl
@[simp] theorem State.Of.setShift_endm (e : BitVec c.srw) : (s.setShift e).endm = s.endm := rfl
@[simp] theorem State.Of.setShift_key (e : BitVec c.srw) : (s.setShift e).key = s.key := rfl
@[simp] theorem State.Of.setShift_phase (e : BitVec c.srw) : (s.setShift e).phase = s.phase := rfl
@[simp] theorem State.Of.setShift_segi (e : BitVec c.srw) : (s.setShift e).segi = s.segi := rfl
@[simp] theorem State.Of.setShift_segq (e : BitVec c.srw) : (s.setShift e).segq = s.segq := rfl
@[simp] theorem State.Of.setShift_ramp (e : BitVec c.srw) : (s.setShift e).ramp = s.ramp := rfl
@[simp] theorem State.Of.setShift_iout (e : BitVec c.srw) : (s.setShift e).iout = s.iout := rfl
@[simp] theorem State.Of.setShift_qout (e : BitVec c.srw) : (s.setShift e).qout = s.qout := rfl
@[simp] theorem State.Of.setShift_ovrcnt (e : BitVec c.srw) : (s.setShift e).ovrcnt = s.ovrcnt := rfl
@[simp] theorem State.Of.setShift_qovf (e : BitVec c.srw) : (s.setShift e).qovf = s.qovf := rfl
@[simp] theorem State.Of.setShift_tovr (e : BitVec c.srw) : (s.setShift e).tovr = s.tovr := rfl
@[simp] theorem State.Of.setShift_illop (e : BitVec c.srw) : (s.setShift e).illop = s.illop := rfl
@[simp] theorem State.Of.setShift_inputs (e : BitVec c.srw) : (s.setShift e).inputs = s.inputs := rfl
@[simp] theorem State.Of.setShift_response (e : BitVec c.srw) : (s.setShift e).response = s.response := rfl

@[simp] theorem State.Of.setEndm_qbuf (b : Bool) : (s.setEndm b).qbuf = s.qbuf := rfl
@[simp] theorem State.Of.setEndm_qhead (b : Bool) : (s.setEndm b).qhead = s.qhead := rfl
@[simp] theorem State.Of.setEndm_qtail (b : Bool) : (s.setEndm b).qtail = s.qtail := rfl
@[simp] theorem State.Of.setEndm_qcnt (b : Bool) : (s.setEndm b).qcnt = s.qcnt := rfl
@[simp] theorem State.Of.setEndm_shift (b : Bool) : (s.setEndm b).shift = s.shift := rfl
@[simp] theorem State.Of.setEndm_endm (b : Bool) : (s.setEndm b).endm = b := rfl
@[simp] theorem State.Of.setEndm_key (b : Bool) : (s.setEndm b).key = s.key := rfl
@[simp] theorem State.Of.setEndm_phase (b : Bool) : (s.setEndm b).phase = s.phase := rfl
@[simp] theorem State.Of.setEndm_segi (b : Bool) : (s.setEndm b).segi = s.segi := rfl
@[simp] theorem State.Of.setEndm_segq (b : Bool) : (s.setEndm b).segq = s.segq := rfl
@[simp] theorem State.Of.setEndm_ramp (b : Bool) : (s.setEndm b).ramp = s.ramp := rfl
@[simp] theorem State.Of.setEndm_iout (b : Bool) : (s.setEndm b).iout = s.iout := rfl
@[simp] theorem State.Of.setEndm_qout (b : Bool) : (s.setEndm b).qout = s.qout := rfl
@[simp] theorem State.Of.setEndm_ovrcnt (b : Bool) : (s.setEndm b).ovrcnt = s.ovrcnt := rfl
@[simp] theorem State.Of.setEndm_qovf (b : Bool) : (s.setEndm b).qovf = s.qovf := rfl
@[simp] theorem State.Of.setEndm_tovr (b : Bool) : (s.setEndm b).tovr = s.tovr := rfl
@[simp] theorem State.Of.setEndm_illop (b : Bool) : (s.setEndm b).illop = s.illop := rfl
@[simp] theorem State.Of.setEndm_inputs (b : Bool) : (s.setEndm b).inputs = s.inputs := rfl
@[simp] theorem State.Of.setEndm_response (b : Bool) : (s.setEndm b).response = s.response := rfl

@[simp] theorem State.Of.setPsm_qbuf (e : Seg × Seg × Phase) : (s.setPsm e).qbuf = s.qbuf := rfl
@[simp] theorem State.Of.setPsm_qhead (e : Seg × Seg × Phase) : (s.setPsm e).qhead = s.qhead := rfl
@[simp] theorem State.Of.setPsm_qtail (e : Seg × Seg × Phase) : (s.setPsm e).qtail = s.qtail := rfl
@[simp] theorem State.Of.setPsm_qcnt (e : Seg × Seg × Phase) : (s.setPsm e).qcnt = s.qcnt := rfl
@[simp] theorem State.Of.setPsm_shift (e : Seg × Seg × Phase) : (s.setPsm e).shift = s.shift := rfl
@[simp] theorem State.Of.setPsm_endm (e : Seg × Seg × Phase) : (s.setPsm e).endm = s.endm := rfl
@[simp] theorem State.Of.setPsm_key (e : Seg × Seg × Phase) : (s.setPsm e).key = s.key := rfl
@[simp] theorem State.Of.setPsm_phase (e : Seg × Seg × Phase) : (s.setPsm e).phase = e.2.2 := rfl
@[simp] theorem State.Of.setPsm_segi (e : Seg × Seg × Phase) : (s.setPsm e).segi = e.1 := rfl
@[simp] theorem State.Of.setPsm_segq (e : Seg × Seg × Phase) : (s.setPsm e).segq = e.2.1 := rfl
@[simp] theorem State.Of.setPsm_ramp (e : Seg × Seg × Phase) : (s.setPsm e).ramp = s.ramp := rfl
@[simp] theorem State.Of.setPsm_iout (e : Seg × Seg × Phase) : (s.setPsm e).iout = s.iout := rfl
@[simp] theorem State.Of.setPsm_qout (e : Seg × Seg × Phase) : (s.setPsm e).qout = s.qout := rfl
@[simp] theorem State.Of.setPsm_ovrcnt (e : Seg × Seg × Phase) : (s.setPsm e).ovrcnt = s.ovrcnt := rfl
@[simp] theorem State.Of.setPsm_qovf (e : Seg × Seg × Phase) : (s.setPsm e).qovf = s.qovf := rfl
@[simp] theorem State.Of.setPsm_tovr (e : Seg × Seg × Phase) : (s.setPsm e).tovr = s.tovr := rfl
@[simp] theorem State.Of.setPsm_illop (e : Seg × Seg × Phase) : (s.setPsm e).illop = s.illop := rfl
@[simp] theorem State.Of.setPsm_inputs (e : Seg × Seg × Phase) : (s.setPsm e).inputs = s.inputs := rfl
@[simp] theorem State.Of.setPsm_response (e : Seg × Seg × Phase) : (s.setPsm e).response = s.response := rfl

@[simp] theorem State.Of.dequeue_qbuf : (s.dequeue).qbuf = s.qbuf := rfl
@[simp] theorem State.Of.dequeue_qhead : (s.dequeue).qhead = nextSlot s.qhead := rfl
@[simp] theorem State.Of.dequeue_qtail : (s.dequeue).qtail = s.qtail := rfl
@[simp] theorem State.Of.dequeue_qcnt : (s.dequeue).qcnt = countDown s.qcnt := rfl
@[simp] theorem State.Of.dequeue_shift : (s.dequeue).shift = s.shift := rfl
@[simp] theorem State.Of.dequeue_endm : (s.dequeue).endm = s.endm := rfl
@[simp] theorem State.Of.dequeue_key : (s.dequeue).key = s.key := rfl
@[simp] theorem State.Of.dequeue_phase : (s.dequeue).phase = s.phase := rfl
@[simp] theorem State.Of.dequeue_segi : (s.dequeue).segi = s.segi := rfl
@[simp] theorem State.Of.dequeue_segq : (s.dequeue).segq = s.segq := rfl
@[simp] theorem State.Of.dequeue_ramp : (s.dequeue).ramp = s.ramp := rfl
@[simp] theorem State.Of.dequeue_iout : (s.dequeue).iout = s.iout := rfl
@[simp] theorem State.Of.dequeue_qout : (s.dequeue).qout = s.qout := rfl
@[simp] theorem State.Of.dequeue_ovrcnt : (s.dequeue).ovrcnt = s.ovrcnt := rfl
@[simp] theorem State.Of.dequeue_qovf : (s.dequeue).qovf = s.qovf := rfl
@[simp] theorem State.Of.dequeue_tovr : (s.dequeue).tovr = s.tovr := rfl
@[simp] theorem State.Of.dequeue_illop : (s.dequeue).illop = s.illop := rfl
@[simp] theorem State.Of.dequeue_inputs : (s.dequeue).inputs = s.inputs := rfl
@[simp] theorem State.Of.dequeue_response : (s.dequeue).response = s.response := rfl

@[simp] theorem State.Of.enqueue_qbuf (b : Byte) : (s.enqueue b).qbuf = Memory.write s.qbuf s.qtail.val b := rfl
@[simp] theorem State.Of.enqueue_qhead (b : Byte) : (s.enqueue b).qhead = s.qhead := rfl
@[simp] theorem State.Of.enqueue_qtail (b : Byte) : (s.enqueue b).qtail = nextSlot s.qtail := rfl
@[simp] theorem State.Of.enqueue_qcnt (b : Byte) : (s.enqueue b).qcnt = countUp s.qcnt := rfl
@[simp] theorem State.Of.enqueue_shift (b : Byte) : (s.enqueue b).shift = s.shift := rfl
@[simp] theorem State.Of.enqueue_endm (b : Byte) : (s.enqueue b).endm = s.endm := rfl
@[simp] theorem State.Of.enqueue_key (b : Byte) : (s.enqueue b).key = s.key := rfl
@[simp] theorem State.Of.enqueue_phase (b : Byte) : (s.enqueue b).phase = s.phase := rfl
@[simp] theorem State.Of.enqueue_segi (b : Byte) : (s.enqueue b).segi = s.segi := rfl
@[simp] theorem State.Of.enqueue_segq (b : Byte) : (s.enqueue b).segq = s.segq := rfl
@[simp] theorem State.Of.enqueue_ramp (b : Byte) : (s.enqueue b).ramp = s.ramp := rfl
@[simp] theorem State.Of.enqueue_iout (b : Byte) : (s.enqueue b).iout = s.iout := rfl
@[simp] theorem State.Of.enqueue_qout (b : Byte) : (s.enqueue b).qout = s.qout := rfl
@[simp] theorem State.Of.enqueue_ovrcnt (b : Byte) : (s.enqueue b).ovrcnt = s.ovrcnt := rfl
@[simp] theorem State.Of.enqueue_qovf (b : Byte) : (s.enqueue b).qovf = s.qovf := rfl
@[simp] theorem State.Of.enqueue_tovr (b : Byte) : (s.enqueue b).tovr = s.tovr := rfl
@[simp] theorem State.Of.enqueue_illop (b : Byte) : (s.enqueue b).illop = s.illop := rfl
@[simp] theorem State.Of.enqueue_inputs (b : Byte) : (s.enqueue b).inputs = s.inputs := rfl
@[simp] theorem State.Of.enqueue_response (b : Byte) : (s.enqueue b).response = s.response := rfl

@[simp] theorem State.Of.respond_qbuf (r : Response) : (s.respond r).qbuf = s.qbuf := rfl
@[simp] theorem State.Of.respond_qhead (r : Response) : (s.respond r).qhead = s.qhead := rfl
@[simp] theorem State.Of.respond_qtail (r : Response) : (s.respond r).qtail = s.qtail := rfl
@[simp] theorem State.Of.respond_qcnt (r : Response) : (s.respond r).qcnt = s.qcnt := rfl
@[simp] theorem State.Of.respond_shift (r : Response) : (s.respond r).shift = s.shift := rfl
@[simp] theorem State.Of.respond_endm (r : Response) : (s.respond r).endm = s.endm := rfl
@[simp] theorem State.Of.respond_key (r : Response) : (s.respond r).key = s.key := rfl
@[simp] theorem State.Of.respond_phase (r : Response) : (s.respond r).phase = s.phase := rfl
@[simp] theorem State.Of.respond_segi (r : Response) : (s.respond r).segi = s.segi := rfl
@[simp] theorem State.Of.respond_segq (r : Response) : (s.respond r).segq = s.segq := rfl
@[simp] theorem State.Of.respond_ramp (r : Response) : (s.respond r).ramp = s.ramp := rfl
@[simp] theorem State.Of.respond_iout (r : Response) : (s.respond r).iout = s.iout := rfl
@[simp] theorem State.Of.respond_qout (r : Response) : (s.respond r).qout = s.qout := rfl
@[simp] theorem State.Of.respond_ovrcnt (r : Response) : (s.respond r).ovrcnt = s.ovrcnt := rfl
@[simp] theorem State.Of.respond_qovf (r : Response) : (s.respond r).qovf = s.qovf := rfl
@[simp] theorem State.Of.respond_tovr (r : Response) : (s.respond r).tovr = s.tovr := rfl
@[simp] theorem State.Of.respond_illop (r : Response) : (s.respond r).illop = s.illop := rfl
@[simp] theorem State.Of.respond_inputs (r : Response) : (s.respond r).inputs = s.inputs := rfl
@[simp] theorem State.Of.respond_response (r : Response) : (s.respond r).response = some r := rfl

@[simp] theorem State.Of.present_eq (w : OpWord) : s.present w = s.setInputs (.word w :: s.inputs) := rfl

@[simp] theorem State.Of.setInputs_qbuf (l : List Input) : (s.setInputs l).qbuf = s.qbuf := rfl
@[simp] theorem State.Of.setInputs_qhead (l : List Input) : (s.setInputs l).qhead = s.qhead := rfl
@[simp] theorem State.Of.setInputs_qtail (l : List Input) : (s.setInputs l).qtail = s.qtail := rfl
@[simp] theorem State.Of.setInputs_qcnt (l : List Input) : (s.setInputs l).qcnt = s.qcnt := rfl
@[simp] theorem State.Of.setInputs_shift (l : List Input) : (s.setInputs l).shift = s.shift := rfl
@[simp] theorem State.Of.setInputs_endm (l : List Input) : (s.setInputs l).endm = s.endm := rfl
@[simp] theorem State.Of.setInputs_key (l : List Input) : (s.setInputs l).key = s.key := rfl
@[simp] theorem State.Of.setInputs_phase (l : List Input) : (s.setInputs l).phase = s.phase := rfl
@[simp] theorem State.Of.setInputs_segi (l : List Input) : (s.setInputs l).segi = s.segi := rfl
@[simp] theorem State.Of.setInputs_segq (l : List Input) : (s.setInputs l).segq = s.segq := rfl
@[simp] theorem State.Of.setInputs_ramp (l : List Input) : (s.setInputs l).ramp = s.ramp := rfl
@[simp] theorem State.Of.setInputs_iout (l : List Input) : (s.setInputs l).iout = s.iout := rfl
@[simp] theorem State.Of.setInputs_qout (l : List Input) : (s.setInputs l).qout = s.qout := rfl
@[simp] theorem State.Of.setInputs_ovrcnt (l : List Input) : (s.setInputs l).ovrcnt = s.ovrcnt := rfl
@[simp] theorem State.Of.setInputs_qovf (l : List Input) : (s.setInputs l).qovf = s.qovf := rfl
@[simp] theorem State.Of.setInputs_tovr (l : List Input) : (s.setInputs l).tovr = s.tovr := rfl
@[simp] theorem State.Of.setInputs_illop (l : List Input) : (s.setInputs l).illop = s.illop := rfl
@[simp] theorem State.Of.setInputs_inputs (l : List Input) : (s.setInputs l).inputs = l := rfl
@[simp] theorem State.Of.setInputs_response (l : List Input) : (s.setInputs l).response = s.response := rfl

@[simp] theorem recordError_queueOverrun_qbuf : (recordError .queueOverrun s).qbuf = s.qbuf := rfl
@[simp] theorem recordError_queueOverrun_qhead : (recordError .queueOverrun s).qhead = s.qhead := rfl
@[simp] theorem recordError_queueOverrun_qtail : (recordError .queueOverrun s).qtail = s.qtail := rfl
@[simp] theorem recordError_queueOverrun_qcnt : (recordError .queueOverrun s).qcnt = s.qcnt := rfl
@[simp] theorem recordError_queueOverrun_shift : (recordError .queueOverrun s).shift = s.shift := rfl
@[simp] theorem recordError_queueOverrun_endm : (recordError .queueOverrun s).endm = s.endm := rfl
@[simp] theorem recordError_queueOverrun_key : (recordError .queueOverrun s).key = s.key := rfl
@[simp] theorem recordError_queueOverrun_phase : (recordError .queueOverrun s).phase = s.phase := rfl
@[simp] theorem recordError_queueOverrun_segi : (recordError .queueOverrun s).segi = s.segi := rfl
@[simp] theorem recordError_queueOverrun_segq : (recordError .queueOverrun s).segq = s.segq := rfl
@[simp] theorem recordError_queueOverrun_ramp : (recordError .queueOverrun s).ramp = s.ramp := rfl
@[simp] theorem recordError_queueOverrun_iout : (recordError .queueOverrun s).iout = s.iout := rfl
@[simp] theorem recordError_queueOverrun_qout : (recordError .queueOverrun s).qout = s.qout := rfl
@[simp] theorem recordError_queueOverrun_ovrcnt : (recordError .queueOverrun s).ovrcnt = s.ovrcnt := rfl
@[simp] theorem recordError_queueOverrun_qovf : (recordError .queueOverrun s).qovf = true := rfl
@[simp] theorem recordError_queueOverrun_tovr : (recordError .queueOverrun s).tovr = s.tovr := rfl
@[simp] theorem recordError_queueOverrun_illop : (recordError .queueOverrun s).illop = s.illop := rfl
@[simp] theorem recordError_queueOverrun_inputs : (recordError .queueOverrun s).inputs = s.inputs := rfl
@[simp] theorem recordError_queueOverrun_response : (recordError .queueOverrun s).response = s.response := rfl

@[simp] theorem recordError_tickOverrun_qbuf : (recordError .tickOverrun s).qbuf = s.qbuf := rfl
@[simp] theorem recordError_tickOverrun_qhead : (recordError .tickOverrun s).qhead = s.qhead := rfl
@[simp] theorem recordError_tickOverrun_qtail : (recordError .tickOverrun s).qtail = s.qtail := rfl
@[simp] theorem recordError_tickOverrun_qcnt : (recordError .tickOverrun s).qcnt = s.qcnt := rfl
@[simp] theorem recordError_tickOverrun_shift : (recordError .tickOverrun s).shift = s.shift := rfl
@[simp] theorem recordError_tickOverrun_endm : (recordError .tickOverrun s).endm = s.endm := rfl
@[simp] theorem recordError_tickOverrun_key : (recordError .tickOverrun s).key = s.key := rfl
@[simp] theorem recordError_tickOverrun_phase : (recordError .tickOverrun s).phase = s.phase := rfl
@[simp] theorem recordError_tickOverrun_segi : (recordError .tickOverrun s).segi = s.segi := rfl
@[simp] theorem recordError_tickOverrun_segq : (recordError .tickOverrun s).segq = s.segq := rfl
@[simp] theorem recordError_tickOverrun_ramp : (recordError .tickOverrun s).ramp = s.ramp := rfl
@[simp] theorem recordError_tickOverrun_iout : (recordError .tickOverrun s).iout = s.iout := rfl
@[simp] theorem recordError_tickOverrun_qout : (recordError .tickOverrun s).qout = s.qout := rfl
@[simp] theorem recordError_tickOverrun_ovrcnt : (recordError .tickOverrun s).ovrcnt = satInc s.ovrcnt := rfl
@[simp] theorem recordError_tickOverrun_qovf : (recordError .tickOverrun s).qovf = s.qovf := rfl
@[simp] theorem recordError_tickOverrun_tovr : (recordError .tickOverrun s).tovr = true := rfl
@[simp] theorem recordError_tickOverrun_illop : (recordError .tickOverrun s).illop = s.illop := rfl
@[simp] theorem recordError_tickOverrun_inputs : (recordError .tickOverrun s).inputs = s.inputs := rfl
@[simp] theorem recordError_tickOverrun_response : (recordError .tickOverrun s).response = s.response := rfl

@[simp] theorem recordError_reservedWord_qbuf : (recordError .reservedWord s).qbuf = s.qbuf := rfl
@[simp] theorem recordError_reservedWord_qhead : (recordError .reservedWord s).qhead = s.qhead := rfl
@[simp] theorem recordError_reservedWord_qtail : (recordError .reservedWord s).qtail = s.qtail := rfl
@[simp] theorem recordError_reservedWord_qcnt : (recordError .reservedWord s).qcnt = s.qcnt := rfl
@[simp] theorem recordError_reservedWord_shift : (recordError .reservedWord s).shift = s.shift := rfl
@[simp] theorem recordError_reservedWord_endm : (recordError .reservedWord s).endm = s.endm := rfl
@[simp] theorem recordError_reservedWord_key : (recordError .reservedWord s).key = s.key := rfl
@[simp] theorem recordError_reservedWord_phase : (recordError .reservedWord s).phase = s.phase := rfl
@[simp] theorem recordError_reservedWord_segi : (recordError .reservedWord s).segi = s.segi := rfl
@[simp] theorem recordError_reservedWord_segq : (recordError .reservedWord s).segq = s.segq := rfl
@[simp] theorem recordError_reservedWord_ramp : (recordError .reservedWord s).ramp = s.ramp := rfl
@[simp] theorem recordError_reservedWord_iout : (recordError .reservedWord s).iout = s.iout := rfl
@[simp] theorem recordError_reservedWord_qout : (recordError .reservedWord s).qout = s.qout := rfl
@[simp] theorem recordError_reservedWord_ovrcnt : (recordError .reservedWord s).ovrcnt = s.ovrcnt := rfl
@[simp] theorem recordError_reservedWord_qovf : (recordError .reservedWord s).qovf = s.qovf := rfl
@[simp] theorem recordError_reservedWord_tovr : (recordError .reservedWord s).tovr = s.tovr := rfl
@[simp] theorem recordError_reservedWord_illop : (recordError .reservedWord s).illop = true := rfl
@[simp] theorem recordError_reservedWord_inputs : (recordError .reservedWord s).inputs = s.inputs := rfl
@[simp] theorem recordError_reservedWord_response : (recordError .reservedWord s).response = s.response := rfl

@[simp] theorem resetEvent_qbuf : (resetEvent s).qbuf = s.qbuf := rfl
@[simp] theorem resetEvent_qhead : (resetEvent s).qhead = (State.Of.reset c).qhead := rfl
@[simp] theorem resetEvent_qtail : (resetEvent s).qtail = (State.Of.reset c).qtail := rfl
@[simp] theorem resetEvent_qcnt : (resetEvent s).qcnt = (State.Of.reset c).qcnt := rfl
@[simp] theorem resetEvent_shift : (resetEvent s).shift = (State.Of.reset c).shift := rfl
@[simp] theorem resetEvent_endm : (resetEvent s).endm = (State.Of.reset c).endm := rfl
@[simp] theorem resetEvent_key : (resetEvent s).key = (State.Of.reset c).key := rfl
@[simp] theorem resetEvent_phase : (resetEvent s).phase = (State.Of.reset c).phase := rfl
@[simp] theorem resetEvent_segi : (resetEvent s).segi = (State.Of.reset c).segi := rfl
@[simp] theorem resetEvent_segq : (resetEvent s).segq = (State.Of.reset c).segq := rfl
@[simp] theorem resetEvent_ramp : (resetEvent s).ramp = (State.Of.reset c).ramp := rfl
@[simp] theorem resetEvent_iout : (resetEvent s).iout = (State.Of.reset c).iout := rfl
@[simp] theorem resetEvent_qout : (resetEvent s).qout = (State.Of.reset c).qout := rfl
@[simp] theorem resetEvent_ovrcnt : (resetEvent s).ovrcnt = (State.Of.reset c).ovrcnt := rfl
@[simp] theorem resetEvent_qovf : (resetEvent s).qovf = (State.Of.reset c).qovf := rfl
@[simp] theorem resetEvent_tovr : (resetEvent s).tovr = (State.Of.reset c).tovr := rfl
@[simp] theorem resetEvent_illop : (resetEvent s).illop = (State.Of.reset c).illop := rfl
@[simp] theorem resetEvent_inputs : (resetEvent s).inputs = s.inputs := rfl
@[simp] theorem resetEvent_response : (resetEvent s).response = (State.Of.reset c).response := rfl

end Sys2Proof.Machine
end

