-- ==== Sys2Proof/Laws/Units.lean ====
section
/-! SUPPORT. For each shared operation one lemma that says once everything it can do: POP, NEXTSYM, RESOLVE, the advance of
the ramp, and the access primitives; in any configuration, and what they read in this hardware's. The provers cite these
instead of unfolding. -/

namespace Sys2Proof.Machine

/-! ### This hardware as a configuration -/

/-- The bounds of the index registers of this hardware, in numerals (R41, R46). -/
theorem State.Of.ramp_lt (s : State) : s.ramp.val < 256 := s.ramp.isLt

theorem State.Of.qhead_lt (s : State) : s.qhead.val < 26 := s.qhead.isLt

theorem State.Of.qtail_lt (s : State) : s.qtail.val < 26 := s.qtail.isLt

theorem State.Of.qcnt_le (s : State) : s.qcnt.val ≤ 26 := Nat.le_of_lt_succ s.qcnt.isLt

@[simp] theorem code_hardware (b : Byte) : Config.hardware.code b = varicode b := rfl

@[simp] theorem sample_hardware (g : Seg) (k : Fin Config.symlen) : Config.hardware.sample g k = shape g k := rfl

/-- `exec` is the meaning of every instruction at this hardware's configuration. -/
theorem exec_eq_execOf (i : Instr) (s : State) : exec i s = execOf i s := by
  cases i <;> rfl

/-- `step` is the step of this hardware's configuration. -/
theorem step_eq_stepOf (s : State) : step s = stepOf Config.hardware s :=
  congrArg (fun run => stepBy run s) (funext fun i => funext fun t => exec_eq_execOf i t)

theorem atBoundary_iff (s : State) : atBoundary s = true ↔ s.ramp.val + 1 = 256 := by
  unfold atBoundary
  exact beq_iff_eq

/-! ### The operations in any configuration -/

variable {c : Configuration}

theorem atBoundary_iff_of (s : State.Of c) : atBoundary s = true ↔ s.ramp.val + 1 = c.symlen := by
  unfold atBoundary
  exact beq_iff_eq

/-- The bias of the physical shape ROM changes no value read (R63). -/
@[simp] theorem sRead_eq_sample (g : Seg) (k : Fin c.symlen) : sRead g k = c.sample g k := by
  simp [sRead, shapeRom, Configuration.sample]

/-- VARICODE[b]: the designer's word, or FALLBACK_CODE (R90). -/
theorem code_eq_getD (b : Byte) : c.code b = (c.params.varicode b).getD c.params.fallbackCode := by
  unfold Configuration.code
  cases c.params.varicode b <;> rfl

@[simp] theorem vRead_eq_code (b : Byte) : vRead c b = c.code b := rfl

/-- A legal sample fits its width: no value of SHAPE wraps (R8, R95). -/
theorem sample_toInt (g : Seg) (k : Fin c.symlen) : (c.sample g k).toInt = c.params.shape g k.val := by
  have hr := c.legal.shape_range g k.val k.isLt
  have ha := c.legal.amp_le
  have hw := c.legal.sampw_ge
  obtain ⟨w, hw'⟩ : ∃ w, c.params.sampw = w + 1 := ⟨c.params.sampw - 1, by omega⟩
  rw [hw', Nat.add_sub_cancel] at ha
  have hp : (2 : Nat) ^ (w + 1) = 2 * 2 ^ w := by rw [Nat.pow_succ, Nat.mul_comm]
  have h1 : 1 ≤ 2 ^ w := Nat.one_le_two_pow
  unfold Configuration.sample
  rw [BitVec.toInt_ofInt, Configuration.sampw, hw', hp]
  generalize 2 ^ w = n at *
  apply Int.bmod_eq_of_le <;> push_cast <;> omega

/-- Two segments that have one level at their ends and starts give one sample there (R94). -/
theorem sample_last_eq_first (g g' : Seg) (k k' : Fin c.symlen) (hk : k.val + 1 = c.symlen) (hk' : k'.val = 0)
    (h : segEnd g = segStart g') : c.sample g k = c.sample g' k' := by
  unfold Configuration.sample
  have e : k.val = c.params.symlen - 1 := by have : k.val + 1 = c.params.symlen := hk; omega
  rw [e, hk', c.legal.shape_last, c.legal.shape_first, h]

/-- With 16-bit samples the response of a TICK is the two samples. -/
@[simp] theorem pairResponse_eq (i q : BitVec 16) : pairResponse i q = q ++ i := by
  simp [pairResponse, BitVec.signExtend_eq]

@[simp] theorem topBit_eq_msb {w : Nat} (e : BitVec w) : topBit e = e.msb := rfl

@[simp] theorem nextSlot_val (i : Fin c.qcap) : (nextSlot i).val = (i.val + 1) % c.qcap := rfl

@[simp] theorem countDown_val (n : Fin (c.qcap + 1)) : (countDown n).val = n.val - 1 := rfl

/-- Where a byte is appended the count goes up by one. -/
theorem countUp_val (n : Fin (c.qcap + 1)) (h : n.val < c.qcap) : (countUp n).val = n.val + 1 :=
  Nat.min_eq_left h

/-- The saturating increment as a number (R160 row 11). -/
theorem satInc_toNat (n : BitVec 16) : (satInc n).toNat = min (n.toNat + 1) 65535 := by
  unfold satInc
  split
  · next h => simp [h]
  · next h =>
    have h1 : n.toNat ≠ 65535 := fun hc => h (BitVec.eq_of_toNat_eq (by simpa using hc))
    have h2 := n.isLt
    rw [BitVec.toNat_add]
    simp only [BitVec.toNat_ofNat]
    omega

/-- POP, both cases (R114). -/
theorem pop_cases (s : State.Of c) :
    (s.qcnt.val = 0 ∧ pop s = (c.idleChar, s)) ∨ (0 < s.qcnt.val ∧ pop s = (qRead s, s.dequeue)) := by
  unfold pop
  by_cases h : s.qcnt.val = 0
  · exact Or.inl ⟨h, by simp [h]⟩
  · exact Or.inr ⟨Nat.pos_of_ne_zero h, if_neg h⟩

/-- NEXTSYM, every leaf of its decision tree (R110 to R117). -/
theorem nextSym_cases (s : State.Of c) :
    (s.key = .stopped ∧ nextSym s = (.coff, s)) ∨
    (s.key = .starting ∧ nextSym s = (.con, s.setKey .running)) ∨
    (s.key = .running ∧ s.shift = 0#c.srw ∧ s.endm = true ∧ nextSym s = (.rev180, s.setEndm false)) ∨
    (s.key = .running ∧ s.shift = 0#c.srw ∧ s.endm = false ∧
      nextSym s = (.rev180, (pop s).2.setShift (c.code (pop s).1))) ∨
    (s.key = .running ∧ s.shift ≠ 0#c.srw ∧ shl1 s.shift = 0#c.srw ∧
      nextSym s = (if s.shift.msb then .nochg else .rev180, (s.setShift (shl1 s.shift)).setEndm true)) ∨
    (s.key = .running ∧ s.shift ≠ 0#c.srw ∧ shl1 s.shift ≠ 0#c.srw ∧
      nextSym s = (if s.shift.msb then .nochg else .rev180, s.setShift (shl1 s.shift))) := by
  unfold nextSym armStopped armStarting armData pathSeparator pathLoad pathShift vRead topBit
  rcases hk : s.key with _ | _ | _
  · exact Or.inl ⟨rfl, rfl⟩
  · exact Or.inr (Or.inl ⟨rfl, rfl⟩)
  · by_cases hs : s.shift = 0#c.srw
    · cases he : s.endm
      · exact Or.inr (Or.inr (Or.inr (Or.inl ⟨rfl, hs, rfl, by simp [hs]⟩)))
      · exact Or.inr (Or.inr (Or.inl ⟨rfl, hs, rfl, by simp [hs]⟩))
    · by_cases hz : shl1 s.shift = 0#c.srw
      · exact Or.inr (Or.inr (Or.inr (Or.inr (Or.inl ⟨rfl, hs, hz, by simp only [if_neg hs, if_pos hz]⟩))))
      · exact Or.inr (Or.inr (Or.inr (Or.inr (Or.inr ⟨rfl, hs, hz, by simp only [if_neg hs, if_neg hz]⟩))))

/-- RESOLVE (R130). -/
theorem resolve_eq (y : Symbol) (s : State.Of c) : resolve y s = s.setPsm (transTable y s.phase) := rfl

/-- The advance of the ramp below the boundary (R150 steps 2 and 3). -/
theorem advance_below (s : State.Of c) (h : s.ramp.val + 1 < c.symlen) :
    advance s = s.setRamp ⟨s.ramp.val + 1, h⟩ := dif_pos h

/-- The advance of the ramp at the boundary (R150 step 3). -/
theorem advance_boundary (s : State.Of c) (h : s.ramp.val + 1 = c.symlen) :
    advance s = symbolStep (s.setRamp ⟨0, c.symlen_pos⟩) := by
  simp only [advance, symbolBoundary, symbolStep]
  rw [dif_neg (by rw [h]; exact Nat.lt_irrefl _)]

/-- The state after a TICK. -/
theorem after_tick (s : State.Of c) :
    after .tick s = (advance (emitPair s)).respond (pairResponse (emitPair s).iout (emitPair s).qout) := rfl

/-- Between steps RAMP is below SYMLEN (R46), so a TICK is either below the boundary or at it. -/
theorem ramp_below_or_boundary (s : State.Of c) : s.ramp.val + 1 < c.symlen ∨ s.ramp.val + 1 = c.symlen := by
  have := s.ramp.isLt
  omega

/-- The state after a TICK below the boundary (R150). -/
theorem after_tick_below (s : State.Of c) (h : s.ramp.val + 1 < c.symlen) :
    after .tick s =
      ((emitPair s).setRamp ⟨s.ramp.val + 1, h⟩).respond (pairResponse (emitPair s).iout (emitPair s).qout) := by
  rw [after_tick, advance_below (emitPair s) h]
  rfl

/-- The state after a TICK at the boundary (R150). -/
theorem after_tick_boundary (s : State.Of c) (h : s.ramp.val + 1 = c.symlen) :
    after .tick s =
      (symbolStep ((emitPair s).setRamp ⟨0, c.symlen_pos⟩)).respond
        (pairResponse (emitPair s).iout (emitPair s).qout) := by
  rw [after_tick, advance_boundary (emitPair s) h]

/-- An accepted PUSH (R170). -/
theorem execPush_accepted (b : Byte) (s : State.Of c) (h : s.qcnt.val < c.qcap) :
    execPush b s = .next ((s.enqueue b).respond 1) := by
  simp [execPush, h, pushResponse]

/-- A rejected PUSH (R171). -/
theorem execPush_rejected (b : Byte) (s : State.Of c) (h : ¬s.qcnt.val < c.qcap) :
    execPush b s = .next ((recordError .queueOverrun s).respond 0) := by
  simp [execPush, h, pushResponse]

/-- The step when an operation word is presented (R9). -/
theorem stepBy_word (run : Instr → State.Of c → Host.Outcome (State.Of c) Fault Refusal) (s : State.Of c) (w : OpWord)
    (rest : List Input) (h : s.inputs = .word w :: rest) :
    stepBy run s = match decode (.cmd w) with
      | .instr i => run i (s.setInputs rest)
      | .reserved w => .next (reservedOp w (s.setInputs rest)) := by
  cases hd : decode (.cmd w) <;> simp only [stepBy, h, hd]

theorem step_word (s : State) (w : OpWord) (rest : List Input) (h : s.inputs = .word w :: rest) :
    step s = match decode (.cmd w) with
      | .instr i => exec i (s.setInputs rest)
      | .reserved w => .next (reservedOp w (s.setInputs rest)) := stepBy_word exec s w rest h

/-- The meaning of a symbol is RESOLVE of it (R130, R135 to R138). -/
theorem execOf_symbolInstr (y : Symbol) (s : State.Of c) : execOf (symbolInstr y) s = .next (resolve y s) := by
  cases y <;> rfl

/-- A symbol's code decodes to the symbol's row (R86). -/
theorem decode_symbolCode (y : Symbol) : decode (.sym (symbolCode y)) = .instr (symbolInstr y) := by
  cases y <;> rfl

/-- In the state made for a symbol the next TICK is at the boundary and NEXTSYM returns that symbol (assumption 2). -/
theorem beforeSymbol_spec (y : Symbol) (s : State.Of c) :
    (s.beforeSymbol y).ramp.val + 1 = c.symlen ∧ ∀ k, (nextSym ((emitPair (s.beforeSymbol y)).setRamp k)).1 = y := by
  refine ⟨?_, fun k => ?_⟩
  · have h := c.symlen_pos
    have e : (s.beforeSymbol y).ramp = lastOffset c := by cases y <;> rfl
    rw [e]
    show c.symlen - 1 + 1 = c.symlen
    omega
  · have h := c.legal.srw_ge
    have hm : (BitVec.twoPow c.srw (c.srw - 1)).msb = true := by
      have : c.srw = c.params.srw := rfl
      simp [BitVec.msb_twoPow]
      omega
    have hz : BitVec.twoPow c.srw (c.srw - 1) ≠ 0#c.srw := fun e => by rw [e] at hm; simp at hm
    cases y
    · simp [nextSym, armData, pathShift, State.Of.beforeSymbol, emitPair, hz, hm]
    all_goals simp [nextSym, armStopped, armStarting, armData, pathSeparator, State.Of.beforeSymbol, emitPair]

end Sys2Proof.Machine
end

