-- ==== Sys2Proof/Tests/Slice0.lean ====
section
/-! SUPPORT. Tests on fixed values, each with its source in spec/ (V, K, U, X, A, O, I, Z are the vectors of
spec/95_test_vectors.md section 3), and for every obligation with hypotheses a witness that they can be met. -/

open Sys2Proof Sys2Proof.Machine

namespace Sys2Proof.Tests

/-! ## Well-formedness: for each check a term it refuses -/

/-- 95 section 3.1, R83: `op` 0, `d` not 0 where it must be, `op` above 6. -/
theorem test_reserved_words_ill_formed :
    (InstrWord.cmd 0x000#12).wellFormed = false ∧ (InstrWord.cmd 0x101#12).wellFormed = false ∧
    (InstrWord.cmd 0x480#12).wellFormed = false ∧ (InstrWord.cmd 0x601#12).wellFormed = false ∧
    (InstrWord.cmd 0x700#12).wellFormed = false ∧ (InstrWord.cmd 0xFFF#12).wellFormed = false := by decide

/-- R81, R86: assigned words. -/
theorem test_assigned_words_well_formed :
    (InstrWord.cmd 0x100#12).wellFormed = true ∧ (InstrWord.cmd 0x2FF#12).wellFormed = true ∧
    (InstrWord.cmd 0x600#12).wellFormed = true ∧ (InstrWord.sym 0b11#2).wellFormed = true := by decide

/-- R89: a code must begin with 1, end with 1 and have no two adjacent 0 bits; the empty code passes. -/
theorem test_codes_ill_formed :
    codeWellFormed [false, true] = false ∧ codeWellFormed [true, false] = false ∧
    codeWellFormed [true, false, false, true] = false ∧ codeWellFormed [] = true ∧
    codeWellFormed [true, false, true, true] = true := by decide

/-- Parameters in the shape of configuration T (spec/95 section 2), with its table TV, its IDLE_CHAR and its SHAPE, and the
sizes left open so that each can be spoiled. -/
abbrev paramsT (symlen srw qcap sampw amp ovrw : Nat) : Config.Params where
  symlen := symlen
  srw := srw
  qcap := qcap
  sampw := sampw
  amp := amp
  bias := 5
  idleChar := 0x00#8
  fallbackCode := BitVec.ofNat srw 0x80000
  varicode := fun b =>
    if b = 0x00#8 then some (BitVec.ofNat srw 0xAAC00)
    else if b = 0x20#8 then some (BitVec.ofNat srw 0x80000)
    else if b = 0x61#8 then some (BitVec.ofNat srw 0xB0000)
    else if b = 0x65#8 then some (BitVec.ofNat srw 0xC0000)
    else if b = 0x74#8 then some (BitVec.ofNat srw 0xA0000)
    else if b = 0x7F#8 then some 0
    else none
  shape := fun g k =>
    match g with
    | .z => 0
    | .p => 3
    | .m => -3
    | .zp => [0, 1, 2, 3].getD k 0
    | .pz => [3, 2, 1, 0].getD k 0
    | .zm => [0, -1, -2, -3].getD k 0
    | .mz => [-3, -2, -1, 0].getD k 0
    | .pm => [3, 1, -1, -3].getD k 0
    | .mp => [-3, -1, 1, 3].getD k 0
  ovrw := ovrw
  fs := 8000

/-- 95 section 2: configuration T "meets every constraint". (BIAS is 5 here, which no value read shows, R63.) -/
theorem test_configuration_T_is_legal : (paramsT 4 20 4 16 3 16).Legal := by
  constructor <;> first | decide | (intro g; cases g <;> decide)

/-- R8: each constraint on a size refuses a set that breaks it alone. -/
theorem test_parameters_ill_formed :
    ¬(paramsT 1 20 4 16 3 16).Legal ∧ ¬(paramsT 4 0 4 16 3 16).Legal ∧ ¬(paramsT 4 20 0 16 3 16).Legal ∧
    ¬(paramsT 4 20 32 16 3 16).Legal ∧ ¬(paramsT 4 20 4 1 3 16).Legal ∧ ¬(paramsT 4 20 4 17 3 16).Legal ∧
    ¬(paramsT 4 20 4 16 0 16).Legal ∧ ¬(paramsT 4 20 4 16 32768 16).Legal ∧ ¬(paramsT 4 20 4 16 3 15).Legal :=
  ⟨fun h => absurd h.symlen_ge (by decide), fun h => absurd h.srw_ge (by decide), fun h => absurd h.qcap_ge (by decide),
   fun h => absurd h.qcap_le (by decide), fun h => absurd h.sampw_ge (by decide), fun h => absurd h.sampw_le (by decide),
   fun h => absurd h.amp_pos (by decide), fun h => absurd h.amp_le (by decide), fun h => absurd h.ovrw_eq (by decide)⟩

/-- R94, R95: a SHAPE that starts, ends, or rests at a wrong level, or leaves the range, is refused. -/
theorem test_shapes_ill_formed :
    ¬({ paramsT 4 20 4 16 3 16 with shape := fun _ _ => 0 } : Config.Params).Legal ∧
    ¬({ paramsT 4 20 4 16 3 16 with shape := fun g _ => 3 * segStart g } : Config.Params).Legal ∧
    ¬({ paramsT 4 20 4 16 3 16 with
        shape := fun g k => if k = 0 then 3 * segStart g else if k = 3 then 3 * segEnd g else 1 } : Config.Params).Legal ∧
    ¬({ paramsT 4 20 4 16 3 16 with
        shape := fun g k => if k = 0 ∨ segStart g = segEnd g then 3 * segStart g else if k = 3 then 3 * segEnd g else 4 } :
        Config.Params).Legal :=
  ⟨fun h => absurd (h.shape_first .p) (by decide), fun h => absurd (h.shape_last .pz) (by decide),
   fun h => absurd (h.shape_steady .z rfl 1 (by decide)) (by decide),
   fun h => absurd (h.shape_range .pm 1 (by decide)) (by decide)⟩

/-- R8: this hardware's own parameters are legal, whatever the open values are. -/
theorem test_hardware_is_legal : Config.hardwareParams.Legal := Config.hardwareParams_legal

/-! ## Decoding: words written out from R81 and R86 -/

theorem test_decode_tick : decode (.cmd 0b0001_00000000#12) = .instr .tick := by decide

theorem test_decode_push :
    decode (.cmd 0b0010_01000001#12) = .instr (.push 0x41#8) ∧
    decode (.cmd 0b0010_00000000#12) = .instr (.push 0x00#8) ∧
    decode (.cmd 0b0010_11111111#12) = .instr (.push 0xFF#8) := by decide

theorem test_decode_txstart : decode (.cmd 0b0011_00000000#12) = .instr .txstart := by decide

theorem test_decode_txstop : decode (.cmd 0b0100_00000000#12) = .instr .txstop := by decide

theorem test_decode_rdstat : decode (.cmd 0b0101_00000000#12) = .instr .rdstat := by decide

theorem test_decode_tickovr : decode (.cmd 0b0110_00000000#12) = .instr .tickovr := by decide

theorem test_decode_nochg : decode (.sym 0b00#2) = .instr .nochg := by decide

theorem test_decode_rev180 : decode (.sym 0b01#2) = .instr .rev180 := by decide

theorem test_decode_coff : decode (.sym 0b10#2) = .instr .coff := by decide

theorem test_decode_con : decode (.sym 0b11#2) = .instr .con := by decide

/-- 95 section 3.1, the reserved column. -/
theorem test_decode_reserved :
    ([0x000#12, 0x0FF#12, 0x101#12, 0x1FF#12, 0x301#12, 0x480#12, 0x5FF#12, 0x601#12, 0x700#12, 0x800#12, 0xFFF#12].all
      fun w => decode (.cmd w) == .reserved w) = true := by decide

/-- 95 section 3.1: 261 assigned words of 4096. -/
theorem test_assigned_count : ((List.range 4096).countP fun n => assigned (BitVec.ofNat 12 n)) = 261 := by
  decide +kernel

/-- Rows of spec/opcode_table.json as whole bytes. -/
theorem test_decode_table_words :
    decodeTableWord 16 0x100 = some .tick ∧ decodeTableWord 16 0x241 = some (.push 0x41#8) ∧
    decodeTableWord 16 0x101 = none ∧ decodeTableWord 16 0x1100 = none ∧
    decodeTableWord 8 2 = some .coff ∧ decodeTableWord 8 4 = none := by decide

/-- R86: symbols have the codes of their instructions. -/
theorem test_symbol_codes :
    [symbolCode .nochg, symbolCode .rev180, symbolCode .coff, symbolCode .con] = [0#2, 1#2, 2#2, 3#2] := by decide

/-- 95 section 3.2: widths. -/
theorem test_code_widths :
    [0x00000#20, 0x80000#20, 0xC0000#20, 0x40000#20, 0xA0000#20, 0xB0000#20, 0xAAC00#20, 0x00001#20, 0xFFFFF#20,
      0x80001#20].map codeWidth = [0, 1, 2, 2, 3, 4, 10, 20, 20, 20] := by decide +kernel

/-- 95 section 3.2: codes in transmission order. -/
theorem test_code_bits :
    codeBits 0xB0000#20 = [true, false, true, true] ∧ codeBits 0x40000#20 = [false, true] ∧
    codeBits 0xAAC00#20 = [true, false, true, false, true, false, true, false, true, true] := by decide +kernel

/-- R98, R99: PUSHS and TICKS. -/
theorem test_assemble :
    assemble Config.symlen [.op .txstart, .pushs [0x65#8, 0x74#8], .dotWord 0x101#12, .ticks 2, .reset] =
      [.word 0x300#12, .word 0x265#12, .word 0x274#12, .word 0x101#12,
       .word 0x100#12, .word 0x100#12, .reset] := by decide

/-! ## One step each -/

/-- Reset with some registers changed: the encoder and the keying. -/
def coded (k : Key) (e : Config.CodeWord) (m : Bool) : State :=
  { State.reset with key := k, shift := e, endm := m }

/-- Reset with both segment selectors, the phase and the ramp set. -/
def shaped (gi gq : Seg) (p : Phase) (k : Nat) (h : k < 256) : State :=
  { State.reset with segi := gi, segq := gq, phase := p, ramp := ⟨k, h⟩ }

/-- Reset with the queue's registers set. -/
def queued (m : Memory) (hd tl n : Nat) (h1 : hd < 26) (h2 : tl < 26) (h3 : n < 27) : State :=
  { State.reset with qbuf := m, qhead := ⟨hd, h1⟩, qtail := ⟨tl, h2⟩, qcnt := ⟨n, h3⟩ }

/-- K1, K3, K5, K9: the pair and its response below a boundary. -/
theorem test_tick_reads_the_segments :
    (after .tick (shaped .pm .pm .ph180 85 (by decide))).response = some 0x20002000#32 ∧
    (after .tick (shaped .zp .zp .ph0 85 (by decide))).response = some 0x10001000#32 ∧
    (after .tick (shaped .m .m .ph180 254 (by decide))).response = some 0xC000C000#32 ∧
    (after .tick (shaped .m .m .ph180 254 (by decide))).ramp.val = 255 ∧
    (after .tick (shaped .p .m .ph270 10 (by decide))).response = some 0xC0004000#32 := by decide +kernel

/-- K7, K8, K10: the boundary. -/
theorem test_tick_crosses_the_boundary :
    (let t := after .tick { shaped .z .z .phoff 255 (by decide) with key := .starting }
     (t.key, t.segi, t.segq, t.phase, t.ramp.val) = (.running, .zp, .zp, .ph0, 0)) ∧
    (let t := after .tick { shaped .pm .pm .ph180 255 (by decide) with key := .running, shift := 0x80000#20 }
     (t.response, t.shift, t.endm, t.segi, t.phase) = (some 0xC000C000#32, 0#20, true, .m, .ph180)) ∧
    (let t := after .tick { shaped .p .m .ph270 255 (by decide) with key := .running, endm := true }
     (t.response, t.endm, t.segi, t.segq, t.phase) = (some 0xC0004000#32, false, .pm, .mp, .ph90)) := by
  decide +kernel

/-- U2, U3: a PUSH that wraps the tail, one that fills the queue. -/
theorem test_push_accepted :
    (let t := after (.push 0x00#8) (queued [(25, 7#8)] 3 25 22 (by decide) (by decide) (by decide))
     (t.response, Memory.read t.qbuf 25, t.qtail.val, t.qcnt.val) = (some 1#32, 0x00#8, 0, 23)) ∧
    (let t := after (.push 0x7A#8) (queued [] 5 4 25 (by decide) (by decide) (by decide))
     (t.response, Memory.read t.qbuf 4, t.qtail.val, t.qcnt.val) = (some 1#32, 0x7A#8, 5, 26)) := by decide

/-- U4: a PUSH on a full queue. -/
theorem test_push_rejected :
    after (.push 0x5A#8) (queued [(5, 9#8)] 5 5 26 (by decide) (by decide) (by decide)) =
      { queued [(5, 9#8)] 5 5 26 (by decide) (by decide) (by decide) with qovf := true, response := some 0#32 } := by
  decide

/-- X1, X2, X3. -/
theorem test_txstart :
    [Key.stopped, .starting, .running].map (fun k => (after .txstart (coded k 0#20 false)).key) =
      [.starting, .starting, .running] := by decide

/-- X4, X5, X6. -/
theorem test_txstop :
    [Key.stopped, .starting, .running].map (fun k => (after .txstop (coded k 0xB0000#20 false)).key) =
      [.stopped, .stopped, .stopped] ∧
    (after .txstop (coded .running 0xB0000#20 false)).shift = 0xB0000#20 := by decide

/-- A1, A6. -/
theorem test_rdstat :
    (after .rdstat State.reset).response = some 0x00000401#32 ∧
    (after .rdstat { queued [] 0 0 26 (by decide) (by decide) (by decide) with
      key := .running, phase := .ph180, endm := true }).response = some 0x0000D2A2#32 := by decide

/-- A7, and A2 (reset, TXSTART, PUSH 0x41). -/
theorem test_rdstat_more :
    (after .rdstat { State.reset with ovrcnt := 0xFFFF#16, tovr := true }).response = some 0xFFFF0409#32 ∧
    (after .rdstat (after (.push 0x41#8) (after .txstart State.reset))).response = some 0x00000C40#32 := by decide

/-- O1, O2, O3. -/
theorem test_tickovr :
    [0#16, 0xFFFE#16, 0xFFFF#16].map (fun n => (after .tickovr { State.reset with ovrcnt := n }).ovrcnt) =
      [1#16, 0xFFFF#16, 0xFFFF#16] ∧
    (after .tickovr State.reset).tovr = true := by decide

/-- 95 section 3.4, the sequence: CON, REV180, REV180, NOCHG, COFF, COFF from PHOFF. -/
theorem test_symbol_sequence :
    (let s1 := after .con State.reset
     let s2 := after .rev180 s1
     let s3 := after .rev180 s2
     let s4 := after .nochg s3
     let s5 := after .coff s4
     let s6 := after .coff s5
     [s1, s2, s3, s4, s5, s6].map (fun s => (s.segi, s.segq, s.phase)) =
       [(.zp, .zp, .ph0), (.pm, .pm, .ph180), (.mp, .mp, .ph0), (.p, .p, .ph0), (.pz, .pz, .phoff),
        (.z, .z, .phoff)]) := by decide

/-- 95 section 3.4: one entry of each symbol at an unreachable phase. -/
theorem test_symbols_at_ph270 :
    [Instr.nochg, .rev180, .coff, .con].map
      (fun i => (let t := after i (shaped .p .m .ph270 0 (by decide)); (segCode t.segi, segCode t.segq, phaseCode t.phase)))
      = [(1#4, 2#4, 3#3), (7#4, 8#4, 1#3), (4#4, 6#4, 4#3), (1#4, 2#4, 3#3)] := by decide

/-! ## The encoder's internal functions -/

/-- V9 to V15. -/
theorem test_nextsym_shift :
    [0xC0000#20, 0x80000#20, 0x55800#20, 0x40000#20, 0x00001#20, 0x80001#20, 0xFFFFF#20].map
      (fun e => (let r := nextSym (coded .running e false); (r.1, r.2.shift, r.2.endm))) =
      [(.nochg, 0x80000#20, false), (.nochg, 0#20, true), (.rev180, 0xAB000#20, false), (.rev180, 0x80000#20, false),
       (.rev180, 0x00002#20, false), (.nochg, 0x00002#20, false), (.nochg, 0xFFFFE#20, false)] := by decide

/-- V1, V3, V4. -/
theorem test_nextsym_keying_and_separator :
    nextSym (coded .stopped 0xC0000#20 false) = (.coff, coded .stopped 0xC0000#20 false) ∧
    nextSym (coded .starting 0xC0000#20 false) = (.con, coded .running 0xC0000#20 false) ∧
    nextSym (coded .running 0#20 true) = (.rev180, coded .running 0#20 false) := by decide

/-- 95 section 3.3, the POP index vector. -/
theorem test_pop_wraps :
    (let r := pop (queued [(25, 0x41#8)] 25 1 2 (by decide) (by decide) (by decide))
     (r.1, r.2.qhead.val, r.2.qcnt.val) = (0x41#8, 0, 1)) := by decide

/-- 95 section 1, S5: the twelve symbols of the source's example, from its load on, without the load. -/
theorem test_example_code :
    (nextSyms 11 (coded .running 0xAAC00#20 false)).1 =
      [.nochg, .rev180, .nochg, .rev180, .nochg, .rev180, .nochg, .rev180, .nochg, .nochg, .rev180] := by decide

/-! ## The tables -/

/-- 95 section 4, P4: samples of the default SHAPE, and R97: its lists have 256 numbers. -/
theorem test_default_shape :
    pmList.length = 256 ∧ pzList.length = 256 ∧ shapeInt .pm 85 = 8192 ∧ shapeInt .zp 85 = 4096 ∧
    shapeInt .zp 170 = 12288 ∧ shapeInt .mp 170 = 8192 ∧ shapeInt .pm 255 = -16384 ∧ shapeInt .zp 255 = 16384 := by
  decide +kernel

/-! ## The step -/

/-- I1: a reserved word through `step`. -/
theorem test_step_reserved :
    step { State.reset with inputs := [.word 0x101#12], ramp := ⟨5, by decide⟩ } =
      .next { State.reset with illop := true, response := some 0#32, ramp := ⟨5, by decide⟩ } := by rfl

/-- The step after `withFetchWord` runs the word. -/
theorem test_step_runs_a_table_word :
    step (State.reset.withFetchWord 16 0x300) =
      .next { State.reset with key := .starting, response := some 0#32 } ∧
    step (State.reset.withFetchWord 8 3) =
      .next { State.reset with key := .running, segi := .zp, segq := .zp, phase := .ph0, response := some 0#32 } :=
  ⟨rfl, rfl⟩

/-- R115, R117, R136: the rows of two data symbols run inside the TICK that `withFetchWord` presents; the last bit of a code
leaves the separator owed, and the separator clears it. -/
theorem test_step_runs_a_data_symbol :
    step ((shaped .p .p .ph0 7 (by decide)).withFetchWord 8 0) =
      .next { shaped .p .p .ph0 0 (by decide) with
        key := .running, endm := true, iout := 0x4000#16, qout := 0x4000#16, response := some 0x40004000#32 } ∧
    step ((shaped .p .p .ph0 7 (by decide)).withFetchWord 8 1) =
      .next { shaped .pm .pm .ph180 0 (by decide) with
        key := .running, iout := 0x4000#16, qout := 0x4000#16, response := some 0x40004000#32 } := ⟨rfl, rfl⟩

/-! ## Other configurations: the hardware of spec/95 section 2, and a narrow one -/

/-- Configuration T (95 section 2). -/
abbrev configT : Configuration := ⟨paramsT 4 20 4 16 3 16, test_configuration_T_is_legal⟩

/-- Configuration T with QCAP = 3 (95 program P2). -/
abbrev configT3 : Configuration :=
  ⟨paramsT 4 20 3 16 3 16, by constructor <;> first | decide | (intro g; cases g <;> decide)⟩

/-- Configuration T with the narrowest samples that hold AMP = 3. -/
abbrev configNarrow : Configuration :=
  ⟨paramsT 4 20 4 3 3 16, by constructor <;> first | decide | (intro g; cases g <;> decide)⟩

/-- A state of configuration T while running, with a queue, and with the segment PM at an offset. -/
def runningT (m : Memory) (n : Fin 5) (e : BitVec 20) (d : Bool) (k : Fin 4) : State.Of configT :=
  { State.Of.reset configT with
    qbuf := m, qcnt := n, key := .running, shift := e, endm := d, segi := .pm, segq := .pm, phase := .ph180, ramp := k }

/-- 95 program P1: a period of PM returns 3 1 -1 -3. -/
theorem test_tick_in_T :
    [0, 1, 2, 3].map (fun k => (after .tick (runningT [] 0 0xC0000#20 false k)).response) =
      [some 0x00030003#32, some 0x00010001#32, some 0xFFFFFFFF#32, some 0xFFFDFFFD#32] ∧
    (after .tick (runningT [] 0 0xC0000#20 false 3)).ramp.val = 0 ∧
    (after .tick (runningT [] 0 0xC0000#20 false 3)).shift = 0x80000#20 := by decide +kernel

/-- V5 to V8: loads of a mapped character, of the idle character, of the empty code, of an unmapped character. -/
theorem test_loads_in_T :
    [runningT [(0, 0x65#8), (1, 0x74#8)] 2 0#20 false 0, runningT [] 0 0#20 false 0,
      runningT [(0, 0x7F#8), (1, 0x20#8)] 2 0#20 false 0, runningT [(0, 0xC8#8)] 1 0#20 false 0].map
      (fun s => (let r := nextSym s; (r.1, r.2.shift, r.2.endm, queueContent r.2))) =
    [(.rev180, 0xC0000#20, false, [0x74#8]), (.rev180, 0xAAC00#20, false, []), (.rev180, 0#20, false, [0x20#8]),
      (.rev180, 0x80000#20, false, [])] := by decide +kernel

/-- A4: 95 program P2 after its four PUSHes. -/
theorem test_status_in_T3 :
    (after .rdstat (afterAll [.push 0x20#8, .push 0x65#8, .push 0x74#8, .push 0x61#8]
      (State.Of.reset configT3))).response = some 0x00001C06#32 := by decide +kernel

/-- 93 item 18: samples of 3 bits are sign-extended to 16 in the response. -/
theorem test_narrow_samples_are_sign_extended :
    (after .tick { State.Of.reset configNarrow with segi := .pm, segq := .zp, ramp := 2 }).response =
      some 0x0002FFFF#32 := by decide +kernel

/-! ## Witnesses: the hypotheses of the obligations can be met, clause by clause -/

theorem witness_ResetEventRestoresEveryRegister :
    ({ State.reset with key := .running, inputs := [.reset, .reset] } : State).inputs = .reset :: [.reset] := rfl

theorem witness_StepRunsTheDecodedInstruction :
    ({ State.reset with inputs := [.word 0x2FF#12] } : State).inputs = .word 0x2FF#12 :: [] ∧
    decode (.cmd 0x2FF#12) = .instr (.push 0xFF#8) := ⟨rfl, by decide⟩

theorem witness_ReservedWordOnlySetsIllop :
    ({ State.reset with inputs := [.word 0xFFF#12] } : State).inputs = .word 0xFFF#12 :: [] ∧
    assigned 0xFFF#12 = false := ⟨rfl, by decide⟩

theorem witness_WaitingChangesNothing : State.reset.inputs = [] := rfl

theorem witness_EveryStepCompletes :
    ({ State.reset with inputs := [.word 0x000#12, .reset] } : State).inputs =
      .word 0x000#12 :: [.reset] := rfl

theorem witness_RunAnswersEveryWord :
    (runWords [0x500#12, 0x101#12] State.reset).1 = [some 0x00000401#32, some 0#32] ∧
    some 0x00000401#32 ∈ (runWords [0x500#12, 0x101#12] State.reset).1 := by decide

/-- Each clause at the edge of its range: offsets 254 and 255. -/
theorem witness_TickEmitsAdvancesAndCrossesTheBoundary :
    (shaped .m .m .ph180 254 (by decide)).ramp.val + 1 < 256 ∧ (shaped .m .m .ph180 255 (by decide)).ramp.val + 1 = 256 :=
  by decide

theorem witness_OffsetsIncreaseWithinASymbolPeriod :
    (shaped .pm .pm .ph180 1 (by decide)).ramp.val + 254 < 256 ∧
    (shaped .pm .pm .ph180 255 (by decide)).ramp.val + 0 < 256 := by decide

theorem witness_SampleStreamRefinesSymbolStream :
    (255 : Nat) < 256 ∧ ({ coded .running 0xB0000#20 false with phase := .ph0 } : State).ramp.val = 0 := by decide

/-- A state at a boundary, with a carrier on, that has the invariants. -/
def carrierAtBoundary : State :=
  { shaped .p .p .ph0 255 (by decide) with key := .running, shift := 0xB0000#20 }

theorem witness_StreamIsContinuousAtTheBoundary :
    Invariants carrierAtBoundary ∧ carrierAtBoundary.ramp.val + 1 = 256 :=
  ⟨by constructor <;> decide, by decide⟩

/-- One state for each of the eight rows, in order. -/
theorem witness_NextSymFollowsItsTable :
    (coded .stopped 0#20 false).key = .stopped ∧
    (coded .starting 0#20 false).key = .starting ∧
    ((coded .running 0#20 true).key = .running ∧ (coded .running 0#20 true).shift = 0#20 ∧
      (coded .running 0#20 true).endm = true) ∧
    ((coded .running 0#20 false).key = .running ∧ (coded .running 0#20 false).shift = 0#20 ∧
      (coded .running 0#20 false).endm = false ∧ (coded .running 0#20 false).qcnt.val = 0) ∧
    (let s : State := { queued [(25, 0x41#8)] 25 0 1 (by decide) (by decide) (by decide) with key := .running }
     s.key = .running ∧ s.shift = 0#20 ∧ s.endm = false ∧ 0 < s.qcnt.val) ∧
    (coded .running 0x80000#20 false).shift = 0x80000#20 ∧
    ((coded .running 0x80001#20 false).shift.msb = true ∧ (coded .running 0x80001#20 false).shift ≠ 0x80000#20) ∧
    ((coded .running 0x00001#20 false).shift.msb = false ∧ (coded .running 0x00001#20 false).shift ≠ 0#20) := by decide

theorem witness_PopReturnsHeadOrIdle :
    State.reset.qcnt.val = 0 ∧
    0 < (queued [(25, 0x41#8)] 25 0 1 (by decide) (by decide) (by decide)).qcnt.val := by decide

theorem witness_PendingCodeIsSentBitByBit :
    (coded .running 0x00001#20 false).key = .running ∧ (coded .running 0x00001#20 false).shift ≠ 0#20 := by decide

theorem witness_CharacterCostsItsSymbols :
    (let s : State := { queued [(25, 0x41#8)] 25 0 1 (by decide) (by decide) (by decide) with key := .running }
     s.key = .running ∧ s.shift = 0#20 ∧ s.endm = false) := by decide

/-- Both ends of the count's range, with a storage in canonical form, and a slot that is not written. -/
theorem witness_PushAppendsWhenNotFull :
    State.reset.qcnt.val < 26 ∧
    (queued [(4, 1#8)] 5 4 25 (by decide) (by decide) (by decide)).qcnt.val < 26 ∧
    Memory.wf (queued [(4, 1#8)] 5 4 25 (by decide) (by decide) (by decide)).qbuf = true ∧
    (5 : Nat) ≠ (queued [(4, 1#8)] 5 4 25 (by decide) (by decide) (by decide)).qtail.val := by decide

theorem witness_PushRejectedWhenFull :
    (queued [] 5 5 26 (by decide) (by decide) (by decide)).qcnt.val = 26 := by decide

theorem witness_QueueIsFifo :
    (let s := queued [(0, 2#8), (25, 1#8)] 25 1 2 (by decide) (by decide) (by decide)
     s.qtail.val = (s.qhead.val + s.qcnt.val) % 26 ∧ Memory.wf s.qbuf = true) := by decide

theorem witness_TxstartAsksForCarrierOn :
    State.reset.key = .stopped ∧ (coded .starting 0#20 false).key ≠ .stopped ∧
    (coded .running 0#20 false).key ≠ .stopped := by decide

/-- One instruction and state for each of the seven clauses, in order. -/
theorem witness_KeyFollowsItsTable :
    (coded .stopped 0#20 false).key = .stopped ∧ (coded .starting 0#20 false).key ≠ .stopped ∧
    (Instr.txstop = .txstop) ∧
    (let s : State := { shaped .z .z .phoff 255 (by decide) with key := .starting }
     s.ramp.val + 1 = 256 ∧ s.key = .starting) ∧
    ((shaped .z .z .phoff 255 (by decide)).ramp.val + 1 = 256 ∧ (shaped .z .z .phoff 255 (by decide)).key ≠ .starting) ∧
    (shaped .z .z .phoff 254 (by decide)).ramp.val + 1 ≠ 256 ∧
    (Instr.rdstat ≠ .txstart ∧ Instr.rdstat ≠ .txstop ∧ Instr.rdstat ≠ .tick) := by decide

/-- While stopped, for any number of TICKs; while starting, up to the boundary and with it. -/
theorem witness_KeyingKeepsThePendingCharacter :
    ((coded .stopped 0xC0000#20 false).key ≠ .running ∧ (coded .stopped 0xC0000#20 false).key = .stopped) ∧
    ((coded .starting 0xC0000#20 false).key ≠ .running ∧ (coded .starting 0xC0000#20 false).ramp.val + 256 ≤ 256) := by
  decide

theorem witness_SilenceAfterKeyOff :
    (shaped .p .p .ph0 255 (by decide)).key = .stopped ∧
    2 * 256 ≤ 257 + (shaped .p .p .ph0 255 (by decide)).ramp.val := by decide

theorem witness_QuietStaysQuiet :
    State.reset.key = .stopped ∧ State.reset.phase = .phoff ∧ State.reset.segi = .z ∧ State.reset.segq = .z ∧
    (0 : Nat) < 1 := by decide

/-- A step without a reset event; each flag already set; each flag set by the step. -/
theorem witness_ErrorRecordsAreSticky :
    State.reset.inputs.head? ≠ some .reset ∧
    (let s : State := { State.reset with qovf := true, tovr := true, illop := true }
     s.inputs.head? ≠ some .reset ∧ s.qovf = true ∧ s.tovr = true ∧ s.illop = true) ∧
    (after (.push 0x5A#8) (queued [] 5 5 26 (by decide) (by decide) (by decide))).qovf ≠
      (queued [] 5 5 26 (by decide) (by decide) (by decide)).qovf ∧
    (after .tickovr State.reset).tovr ≠ State.reset.tovr ∧
    (serveWord 0x101#12 State.reset).illop ≠ State.reset.illop := by decide

theorem witness_DiagnosticsInfluenceNothing :
    sameButDiagnostics State.reset
      { State.reset with ovrcnt := 0xFFFF#16, qovf := true, tovr := true, illop := true, response := some 1#32 } ∧
    ((∃ b, Instr.push 0#8 = .push b) ∨ Instr.push 0#8 = .tick ∨ Instr.push 0#8 = .txstart ∨ Instr.push 0#8 = .txstop ∨
      Instr.push 0#8 = .tickovr) := ⟨rfl, Or.inl ⟨0#8, rfl⟩⟩

/-- RDSTAT meets the premises of every clause. -/
theorem witness_OnlyTheOwnerWrites :
    (∀ b, Instr.rdstat ≠ .push b) ∧ Instr.rdstat ≠ .tick ∧ Instr.rdstat ≠ .txstart ∧ Instr.rdstat ≠ .txstop ∧
    Instr.rdstat ≠ .nochg ∧ Instr.rdstat ≠ .rev180 ∧ Instr.rdstat ≠ .coff ∧ Instr.rdstat ≠ .con ∧
    Instr.rdstat ≠ .tickovr :=
  ⟨fun _ => by simp, by decide⟩

theorem witness_TransitionEntriesJoinRestLevels : Phase.ph270 ≠ .phoff := by decide

theorem witness_DataSymbolsAreDifferential :
    carrierAtBoundary.key = .running ∧ (carrierAtBoundary.phase = .ph0 ∨ carrierAtBoundary.phase = .ph180) ∧
    (let s : State := { coded .running 0#20 true with phase := .ph180 }
     s.key = .running ∧ (s.phase = .ph0 ∨ s.phase = .ph180)) := by decide

theorem witness_EveryStepKeepsTheInvariants :
    Invariants { carrierAtBoundary with inputs := [.word 0x400#12] } ∧
    step { carrierAtBoundary with inputs := [.word 0x400#12] } =
      .next { carrierAtBoundary with key := .stopped, response := some 0#32 } :=
  ⟨by constructor <;> decide, rfl⟩

/-! ### The statements about any configuration, in configuration T -/

theorem witness_EveryConfigurationKeepsTheInvariants :
    Invariants { State.Of.reset configT with inputs := [.word 0x300#12] } ∧
    stepOf configT { State.Of.reset configT with inputs := [.word 0x300#12] } =
      .next { State.Of.reset configT with key := .starting, response := some 0#32 } :=
  ⟨by constructor <;> decide, rfl⟩

/-- Offsets 2 and 3 of 4. -/
theorem witness_TickInEveryConfiguration :
    (runningT [] 0 0xC0000#20 false 2).ramp.val + 1 < configT.symlen ∧
    (runningT [] 0 0xC0000#20 false 3).ramp.val + 1 = configT.symlen := by decide

/-- Counts 3 and 4 of 4. -/
theorem witness_PushInEveryConfiguration :
    (runningT [] 3 0#20 false 0).qcnt.val < configT.qcap ∧ (runningT [] 4 0#20 false 0).qcnt.val = configT.qcap := by decide

/-- One state for each of the seven leaves, in order. -/
theorem witness_NextSymInEveryConfiguration :
    (State.Of.reset configT).key = .stopped ∧
    ({ State.Of.reset configT with key := .starting } : State.Of configT).key = .starting ∧
    ((runningT [] 0 0#20 true 0).key = .running ∧ (runningT [] 0 0#20 true 0).shift = 0#20 ∧
      (runningT [] 0 0#20 true 0).endm = true) ∧
    ((runningT [] 0 0#20 false 0).endm = false ∧ (runningT [] 0 0#20 false 0).qcnt.val = 0) ∧
    0 < (runningT [(0, 0x65#8)] 1 0#20 false 0).qcnt.val ∧
    ((runningT [] 0 0x80000#20 false 0).shift ≠ 0#20 ∧ (runningT [] 0 0x80000#20 false 0).shift <<< 1 = 0#20) ∧
    (runningT [] 0 0x00001#20 false 0).shift <<< 1 ≠ 0#20 := by decide

theorem witness_CharacterCostsItsSymbolsInEveryConfiguration :
    (runningT [(0, 0x7F#8)] 1 0#20 false 0).key = .running ∧ (runningT [(0, 0x7F#8)] 1 0#20 false 0).shift = 0#20 ∧
    (runningT [(0, 0x7F#8)] 1 0#20 false 0).endm = false := by decide

theorem witness_QueueIsFifoInEveryConfiguration :
    (State.Of.reset configT).qtail.val =
      ((State.Of.reset configT).qhead.val + (State.Of.reset configT).qcnt.val) % configT.qcap ∧
    Memory.wf (State.Of.reset configT).qbuf = true := by decide

theorem witness_SampleStreamInEveryConfiguration :
    (3 : Nat) < configT.symlen ∧ (runningT [] 0 0xB0000#20 false 0).ramp.val = 0 := by decide

theorem witness_StreamIsContinuousInEveryConfiguration :
    Invariants ({ runningT [] 0 0xC0000#20 false 3 with qtail := ⟨0, by decide⟩ } : State.Of configT) ∧
    (runningT [] 0 0xC0000#20 false 3).ramp.val + 1 = configT.symlen :=
  ⟨by constructor <;> decide, by decide⟩

theorem witness_SilenceAfterKeyOffInEveryConfiguration :
    ({ State.Of.reset configT with segi := .p, segq := .p, phase := .ph0, ramp := 3 } : State.Of configT).key = .stopped ∧
    2 * configT.symlen ≤ 5 + 3 := by decide

/-! ### The port -/

theorem witness_BoundaryTickRunsTheSymbolOfNextSym :
    (let s : State := { carrierAtBoundary with inputs := [.word 0x100#12, .reset] }
     s.inputs = .word 0x100#12 :: [.reset] ∧ s.ramp.val + 1 = 256) := ⟨rfl, by decide⟩

/-- A step that is no reset event changes each group of items, in the order of the clauses. -/
theorem witness_ThePortIsTheOnlyWayIn :
    (State.Of.reset configT).inputs.head? ≠ some .reset ∧
    (serveWord 0x100#12 (runningT [] 0 0xC0000#20 false 3)).segi ≠ (runningT [] 0 0xC0000#20 false 3).segi ∧
    (serveWord 0x100#12 (runningT [] 0 0xC0000#20 false 2)).ramp ≠ (runningT [] 0 0xC0000#20 false 2).ramp ∧
    (serveWord 0x241#12 (State.Of.reset configT)).qbuf ≠ (State.Of.reset configT).qbuf ∧
    (serveWord 0x241#12 (State.Of.reset configT)).qcnt ≠ (State.Of.reset configT).qcnt ∧
    (serveWord 0x300#12 (State.Of.reset configT)).key ≠ (State.Of.reset configT).key ∧
    (serveWord 0x600#12 (State.Of.reset configT)).tovr ≠ (State.Of.reset configT).tovr ∧
    (serveWord 0x601#12 (State.Of.reset configT)).illop ≠ (State.Of.reset configT).illop := by decide +kernel

end Sys2Proof.Tests
end

section
/-! PROOF. The scope of the model (spec/00_scope.md R8, R9; spec/30_encoding.md R101): what one step does with what is
presented at the port, and this hardware as one configuration of the block. The rules of the step are stated for every
configuration and every meaning of the instructions, so that they serve `step` and `stepOf` alike. -/

namespace Sys2Proof

/-- No operand value is excluded (R82, R86). -/
@[simp] theorem Instr.wellFormed_eq_true (i : Instr) : i.wellFormed = true := by
  cases i <;> rfl

end Sys2Proof

namespace Sys2Proof.Machine

variable {c : Configuration} (run : Instr → State.Of c → Host.Outcome (State.Of c) Fault Refusal) (s : State.Of c)

/-- The step when nothing is presented (R9, R213). -/
theorem stepBy_nothing (h : s.inputs = []) : stepBy run s = .next s := by
  simp only [stepBy, h]

/-- The step when the word presented decodes to an instruction (R9, R101). -/
theorem stepBy_instr {w : OpWord} {rest : List Input} {i : Instr} (h : s.inputs = .word w :: rest)
    (hd : decode (.cmd w) = .instr i) : stepBy run s = run i (s.setInputs rest) := by
  rw [stepBy_word run s w rest h, hd]

end Sys2Proof.Machine

namespace Sys2Proof.Scope

open Sys2Proof.Machine

/-- Settles O7: `stepBy_instr` at the meanings of this hardware. -/
theorem stepRunsTheDecodedInstruction : Obligations.StepRunsTheDecodedInstruction :=
  fun s _ _ i h hd => ⟨i.wellFormed_eq_true, stepBy_instr exec s h hd⟩

/-- Settles O9: `stepBy_nothing` at the meanings of this hardware. -/
theorem waitingChangesNothing : Obligations.WaitingChangesNothing :=
  fun s h => stepBy_nothing exec s h

/-- Settles O46: the meanings and the step agree by `exec_eq_execOf` and `step_eq_stepOf`, the samples by
`sample_hardware`; the state after reset and the numbers of R8 are the hardware's by definition. -/
theorem hardwareIsOneConfiguration : Obligations.HardwareIsOneConfiguration :=
  ⟨exec_eq_execOf, step_eq_stepOf, rfl, rfl, rfl, rfl, rfl, rfl, rfl, rfl, rfl, rfl, sample_hardware⟩

end Sys2Proof.Scope
end

section
/-! PROOF. The rules of the operations (spec/10_state.md R20): what POP, NEXTSYM, one symbol period and each instruction leave
unchanged, in every configuration, stated once for each group of items. -/

namespace Sys2Proof.Machine

variable {c : Configuration}

/-! ### POP, NEXTSYM and one symbol period -/

/-- POP writes QHEAD and QCNT only (R114). -/
theorem pop_frame (s : State.Of c) : (pop s).2 = { s with qhead := (pop s).2.qhead, qcnt := (pop s).2.qcnt } := by
  rcases pop_cases s with ⟨-, h⟩ | ⟨-, h⟩
  · rw [h]
  · rw [h]; rfl

/-- NEXTSYM writes QHEAD, QCNT, SHIFT, ENDM and KEY only (R110 to R117). -/
theorem nextSym_frame (s : State.Of c) :
    (nextSym s).2 = { s with qhead := (nextSym s).2.qhead, qcnt := (nextSym s).2.qcnt, shift := (nextSym s).2.shift,
                             endm := (nextSym s).2.endm, key := (nextSym s).2.key } := by
  rcases nextSym_cases s with ⟨-, h⟩ | ⟨-, h⟩ | ⟨-, -, -, h⟩ | ⟨-, -, -, h⟩ | ⟨-, -, -, h⟩ | ⟨-, -, -, h⟩ <;> rw [h]
  case inr.inr.inr.inl => rw [pop_frame]; rfl
  all_goals rfl

@[simp] theorem nextSym_qbuf (s : State.Of c) : (nextSym s).2.qbuf = s.qbuf := by rw [nextSym_frame]
@[simp] theorem nextSym_qtail (s : State.Of c) : (nextSym s).2.qtail = s.qtail := by rw [nextSym_frame]
@[simp] theorem nextSym_phase (s : State.Of c) : (nextSym s).2.phase = s.phase := by rw [nextSym_frame]
@[simp] theorem nextSym_iout (s : State.Of c) : (nextSym s).2.iout = s.iout := by rw [nextSym_frame]
@[simp] theorem nextSym_qout (s : State.Of c) : (nextSym s).2.qout = s.qout := by rw [nextSym_frame]
@[simp] theorem nextSym_ramp (s : State.Of c) : (nextSym s).2.ramp = s.ramp := by rw [nextSym_frame]
@[simp] theorem nextSym_ovrcnt (s : State.Of c) : (nextSym s).2.ovrcnt = s.ovrcnt := by rw [nextSym_frame]
@[simp] theorem nextSym_tovr (s : State.Of c) : (nextSym s).2.tovr = s.tovr := by rw [nextSym_frame]

/-- One symbol period: the three registers of the phase/shape machine are written over what NEXTSYM leaves (R130). -/
theorem symbolStep_eq (s : State.Of c) :
    symbolStep s = (nextSym s).2.setPsm (transTable (nextSym s).1 s.phase) := by
  rw [symbolStep, resolve_eq, nextSym_phase]

/-! ### The state after each instruction -/

/-- An accepted PUSH (R170). -/
theorem after_push_accepted (b : Byte) (s : State.Of c) (h : s.qcnt.val < c.qcap) :
    after (.push b) s = (s.enqueue b).respond 1 := by
  rw [after, execOf, execPush_accepted b s h]

/-- A rejected PUSH (R171). -/
theorem after_push_rejected (b : Byte) (s : State.Of c) (h : s.qcnt.val = c.qcap) :
    after (.push b) s = (recordError .queueOverrun s).respond 0 := by
  rw [after, execOf, execPush_rejected b s h.not_lt]

/-- QCNT never exceeds QCAP (R41), so a PUSH finds a free slot or a full queue. -/
theorem qcnt_lt_or_eq (s : State.Of c) : s.qcnt.val < c.qcap ∨ s.qcnt.val = c.qcap :=
  Nat.lt_or_eq_of_le (Nat.le_of_lt_succ s.qcnt.isLt)

/-- TXSTART, whatever KEY is (R172). -/
theorem after_txstart (s : State.Of c) :
    after .txstart s = (s.setKey (if s.key = .stopped then .starting else s.key)).respond zeroResponse := by
  cases h : s.key with
  | stopped => simp [after, execOf, execTxstart, h]
  | starting | running =>
    have hkeep : s.setKey s.key = s := rfl
    rw [h] at hkeep
    simp [after, execOf, execTxstart, h, hkeep]

theorem after_txstop (s : State.Of c) : after .txstop s = (s.setKey .stopped).respond zeroResponse := rfl

theorem after_rdstat (s : State.Of c) : after .rdstat s = s.respond (statusWord s) := rfl

theorem after_tickovr (s : State.Of c) :
    after .tickovr s = (recordError .tickOverrun s).respond zeroResponse := rfl

/-- Every instruction completes (R190), and `after` is the state it leaves. -/
theorem execOf_eq_after (i : Instr) (s : State.Of c) : execOf i s = .next (after i s) := by
  have hnext : ∃ t, execOf i s = .next t := by
    cases i with
    | push b => simp only [execOf, execPush]; split <;> exact ⟨_, rfl⟩
    | txstart => simp only [execOf, execTxstart]; split <;> exact ⟨_, rfl⟩
    | _ => exact ⟨_, rfl⟩
  obtain ⟨t, h⟩ := hnext
  rw [after, h]

/-- PUSH writes QBUF, QTAIL, QCNT, QOVF and the response only. -/
theorem after_push_frame (b : Byte) (s : State.Of c) :
    after (.push b) s = { s with qbuf := (after (.push b) s).qbuf, qtail := (after (.push b) s).qtail,
                                 qcnt := (after (.push b) s).qcnt, qovf := (after (.push b) s).qovf,
                                 response := (after (.push b) s).response } := by
  rcases qcnt_lt_or_eq s with h | h
  · rw [after_push_accepted b s h]; rfl
  · rw [after_push_rejected b s h]; rfl

/-- TXSTART writes KEY and the response only. -/
theorem after_txstart_frame (s : State.Of c) :
    after .txstart s = { s with key := (after .txstart s).key, response := (after .txstart s).response } := by
  rw [after_txstart]; rfl

/-- A TICK below the boundary writes the samples, RAMP and the response only (R150 steps 1 and 2). -/
theorem after_tick_frame_below (s : State.Of c) (h : s.ramp.val + 1 ≠ c.symlen) :
    after .tick s = { s with ramp := (after .tick s).ramp, iout := (after .tick s).iout, qout := (after .tick s).qout,
                             response := (after .tick s).response } := by
  rw [after_tick_below s ((ramp_below_or_boundary s).resolve_right h)]; rfl

/-- Anywhere, a TICK leaves the tail of the queue and the error records (R20, R150). -/
theorem after_tick_frame (s : State.Of c) :
    after .tick s = { after .tick s with qbuf := s.qbuf, qtail := s.qtail, qovf := s.qovf, ovrcnt := s.ovrcnt,
                                         tovr := s.tovr, illop := s.illop, inputs := s.inputs } := by
  rcases ramp_below_or_boundary s with h | h
  · rw [after_tick_below s h]; rfl
  · rw [after_tick_boundary s h, symbolStep_eq, nextSym_frame]; rfl

/-! ### What only its owner writes (R20), item by item -/

section Frame

variable {i : Instr} (s : State.Of c)

/-- QBUF, QTAIL and QOVF are PUSH's. -/
theorem after_queueTail (h : ∀ b, i ≠ .push b) :
    (after i s).qbuf = s.qbuf ∧ (after i s).qtail = s.qtail ∧ (after i s).qovf = s.qovf := by
  cases i with
  | push b => exact absurd rfl (h b)
  | tick => rw [after_tick_frame]; exact ⟨rfl, rfl, rfl⟩
  | txstart => rw [after_txstart_frame]; exact ⟨rfl, rfl, rfl⟩
  | _ => exact ⟨rfl, rfl, rfl⟩

/-- RAMP, IOUT and QOUT are TICK's. -/
theorem after_sampler (h : i ≠ .tick) :
    (after i s).ramp = s.ramp ∧ (after i s).iout = s.iout ∧ (after i s).qout = s.qout := by
  cases i with
  | tick => exact absurd rfl h
  | push b => rw [after_push_frame]; exact ⟨rfl, rfl, rfl⟩
  | txstart => rw [after_txstart_frame]; exact ⟨rfl, rfl, rfl⟩
  | _ => exact ⟨rfl, rfl, rfl⟩

/-- QHEAD, SHIFT and ENDM are NEXTSYM's, which a boundary TICK runs. -/
theorem after_encoder (h : i = .tick → s.ramp.val + 1 ≠ c.symlen) :
    (after i s).qhead = s.qhead ∧ (after i s).shift = s.shift ∧ (after i s).endm = s.endm := by
  cases i with
  | tick => rw [after_tick_frame_below s (h rfl)]; exact ⟨rfl, rfl, rfl⟩
  | push b => rw [after_push_frame]; exact ⟨rfl, rfl, rfl⟩
  | txstart => rw [after_txstart_frame]; exact ⟨rfl, rfl, rfl⟩
  | _ => exact ⟨rfl, rfl, rfl⟩

/-- QCNT is PUSH's and POP's. -/
theorem after_qcnt (hp : ∀ b, i ≠ .push b) (h : i = .tick → s.ramp.val + 1 ≠ c.symlen) :
    (after i s).qcnt = s.qcnt := by
  cases i with
  | push b => exact absurd rfl (hp b)
  | tick => rw [after_tick_frame_below s (h rfl)]
  | txstart => rw [after_txstart_frame]
  | _ => rfl

/-- KEY is that of TXSTART, TXSTOP and NEXTSYM. -/
theorem after_key (ha : i ≠ .txstart) (ho : i ≠ .txstop) (h : i = .tick → s.ramp.val + 1 ≠ c.symlen) :
    (after i s).key = s.key := by
  cases i with
  | txstart => exact absurd rfl ha
  | txstop => exact absurd rfl ho
  | tick => rw [after_tick_frame_below s (h rfl)]
  | push b => rw [after_push_frame]
  | _ => rfl

/-- PHASE, SEGI and SEGQ are RESOLVE's: of a boundary TICK and of the symbols. -/
theorem after_psm (hy : ∀ y, i ≠ symbolInstr y) (h : i = .tick → s.ramp.val + 1 ≠ c.symlen) :
    (after i s).phase = s.phase ∧ (after i s).segi = s.segi ∧ (after i s).segq = s.segq := by
  cases i with
  | tick => rw [after_tick_frame_below s (h rfl)]; exact ⟨rfl, rfl, rfl⟩
  | push b => rw [after_push_frame]; exact ⟨rfl, rfl, rfl⟩
  | txstart => rw [after_txstart_frame]; exact ⟨rfl, rfl, rfl⟩
  | nochg => exact absurd rfl (hy .nochg)
  | rev180 => exact absurd rfl (hy .rev180)
  | coff => exact absurd rfl (hy .coff)
  | con => exact absurd rfl (hy .con)
  | _ => exact ⟨rfl, rfl, rfl⟩

/-- OVRCNT and TOVR are TICKOVR's. -/
theorem after_overrun (h : i ≠ .tickovr) : (after i s).ovrcnt = s.ovrcnt ∧ (after i s).tovr = s.tovr := by
  cases i with
  | tickovr => exact absurd rfl h
  | tick => rw [after_tick_frame]; exact ⟨rfl, rfl⟩
  | push b => rw [after_push_frame]; exact ⟨rfl, rfl⟩
  | txstart => rw [after_txstart_frame]; exact ⟨rfl, rfl⟩
  | _ => exact ⟨rfl, rfl⟩

/-- ILLOP is that of the reserved words, and no instruction presents a word. -/
theorem after_illop_inputs (i : Instr) : (after i s).illop = s.illop ∧ (after i s).inputs = s.inputs := by
  cases i with
  | tick => rw [after_tick_frame]; exact ⟨rfl, rfl⟩
  | push b => rw [after_push_frame]; exact ⟨rfl, rfl⟩
  | txstart => rw [after_txstart_frame]; exact ⟨rfl, rfl⟩
  | _ => exact ⟨rfl, rfl⟩

end Frame

end Sys2Proof.Machine
end

section
/-! PROOF. The words of the port (spec/30_encoding.md R80, R81) and everything one step can do (spec/00_scope.md R9). -/

namespace Sys2Proof

/-- A word is its two fields (R80). -/
theorem opField_append_dField (w : OpWord) : opField w ++ dField w = w :=
  BitVec.extractLsb'_append_extractLsb'

/-- A word whose operand field is 0 is given by its `op` (R80). -/
theorem eq_append_zero_of_fields {w : OpWord} {o : BitVec 4} (ho : opField w = o) (hd : dField w = 0#8) :
    o ++ 0#8 = w := by
  rw [← ho, ← hd, opField_append_dField]

/-- A word that decodes to an instruction is that instruction's word (R81). -/
theorem encode_of_decode_cmd {w : OpWord} {i : Instr} (h : decode (.cmd w) = .instr i) : encode i = .cmd w := by
  simp only [decode, decodeCmd] at h
  split_ifs at h with hpush hd htick hstart hstop hstat hovr <;> cases h
  · exact congrArg InstrWord.cmd (by rw [← hpush, opField_append_dField])
  · exact congrArg InstrWord.cmd (eq_append_zero_of_fields htick hd)
  · exact congrArg InstrWord.cmd (eq_append_zero_of_fields hstart hd)
  · exact congrArg InstrWord.cmd (eq_append_zero_of_fields hstop hd)
  · exact congrArg InstrWord.cmd (eq_append_zero_of_fields hstat hd)
  · exact congrArg InstrWord.cmd (eq_append_zero_of_fields hovr hd)

/-- A word that fits the row of PUSH has `op` 2 (R81). -/
theorem opField_of_fits_push {w : OpWord} (h : w &&& 0xF00#12 = 0x200#12) : opField w = 0x2#4 := by
  have hand : opField (w &&& 0xF00#12) = opField w &&& BitVec.allOnes 4 := BitVec.extractLsb'_and
  rw [h, BitVec.and_allOnes] at hand
  exact hand.symm

/-- A word that fits a row of the table decodes to an instruction (R81). -/
theorem decode_of_assigned {w : OpWord} (h : assigned w = true) : ∃ i, decode (.cmd w) = .instr i := by
  have hfull : w &&& 0xFFF#12 = w := BitVec.and_allOnes
  simp only [assigned, cmdRows, CmdRow.fits, List.any_cons, List.any_nil, hfull, Bool.or_eq_true, beq_iff_eq,
    Bool.false_eq_true, or_false] at h
  rcases h with rfl | hpush | rfl | rfl | rfl | rfl
  case inr.inl => exact ⟨.push (dField w), by simp only [decode, decodeCmd, opField_of_fits_push hpush, if_true]⟩
  all_goals exact ⟨_, rfl⟩

/-- A word that the decoder calls reserved fits no row of the table (R81, R83). -/
theorem assigned_eq_false_of_decode_reserved {w v : OpWord} (h : decode (.cmd w) = .reserved v) :
    assigned w = false := by
  rw [← Bool.not_eq_true]
  intro ha
  obtain ⟨i, hi⟩ := decode_of_assigned ha
  rw [h] at hi
  cases hi

/-- A symbol is no word of the port (R86, R233). -/
theorem encode_symbolInstr_ne_cmd (y : Symbol) (w : OpWord) : encode (symbolInstr y) ≠ .cmd w := by
  cases y <;> exact InstrWord.noConfusion

/-- Equal instructions have equal words. -/
theorem word_eq_of_encode {i j : Instr} {w v : OpWord} (hi : encode i = .cmd w) (hj : encode j = .cmd v) (h : i = j) :
    w = v := by
  subst h
  exact InstrWord.cmd.inj (hi.symm.trans hj)

end Sys2Proof

namespace Sys2Proof.Machine

variable {c : Configuration}

/-- Everything a step can do (R9, R176, R210): wait, take a reset event, serve an operation, or serve a reserved word. -/
theorem stepOf_cases (s : State.Of c) :
    (s.inputs = [] ∧ stepOf c s = .next s) ∨
    (∃ rest, s.inputs = .reset :: rest ∧ stepOf c s = .next (resetEvent (s.setInputs rest))) ∨
    (∃ i w rest, s.inputs = .word w :: rest ∧ encode i = .cmd w ∧ stepOf c s = .next (after i (s.setInputs rest))) ∨
    (∃ w rest, s.inputs = .word w :: rest ∧ assigned w = false ∧
      stepOf c s = .next (reservedOp w (s.setInputs rest))) := by
  rcases h : s.inputs with _ | ⟨_ | _, rest⟩
  case nil => exact Or.inl ⟨rfl, stepBy_nothing execOf s h⟩
  case cons.reset => exact Or.inr (Or.inl ⟨rest, rfl, by simp only [stepOf, stepBy, h]⟩)
  case cons.word w =>
    cases hd : decode (.cmd w) with
    | instr i =>
      refine Or.inr (Or.inr (Or.inl ⟨i, w, rest, rfl, encode_of_decode_cmd hd, ?_⟩))
      rw [stepOf, stepBy_instr execOf s h hd, execOf_eq_after]
    | reserved v =>
      refine Or.inr (Or.inr (Or.inr ⟨w, rest, rfl, assigned_eq_false_of_decode_reserved hd, ?_⟩))
      rw [stepOf, stepBy_word execOf s w rest h, hd]
      rfl

end Sys2Proof.Machine
end

section
/-! PROOF. Who writes what (spec/10_state.md R20, R34): ownership for instructions and for steps, and the error records. -/

namespace Sys2Proof.Machine

variable {c : Configuration}

/-- Every instruction of this hardware completes (R190). -/
theorem exec_eq_after (i : Instr) (s : State) : exec i s = .next (after i s) :=
  (exec_eq_execOf i s).trans (execOf_eq_after i s)

/-- QOVF is set by a PUSH on a full queue and by nothing else (R171). -/
theorem after_qovf_cases (i : Instr) (s : State.Of c) :
    (after i s).qovf = s.qovf ∨ (∃ b, i = .push b) ∧ s.qcnt.val = c.qcap ∧ (after i s).qovf = true := by
  by_cases hp : ∃ b, i = .push b
  · obtain ⟨b, rfl⟩ := hp
    rcases qcnt_lt_or_eq s with h | h
    · exact Or.inl (by rw [after_push_accepted b s h]; rfl)
    · exact Or.inr ⟨⟨b, rfl⟩, h, by rw [after_push_rejected b s h]; rfl⟩
  · exact Or.inl (after_queueTail s (not_exists.mp hp)).2.2

/-- TOVR is set and OVRCNT counted by TICKOVR and by nothing else (R175). -/
theorem after_overrun_cases (i : Instr) (s : State.Of c) :
    ((after i s).tovr = s.tovr ∧ (after i s).ovrcnt = s.ovrcnt) ∨
    (i = .tickovr ∧ (after i s).tovr = true ∧ (after i s).ovrcnt = satInc s.ovrcnt) := by
  by_cases hi : i = .tickovr
  · subst hi
    exact Or.inr ⟨rfl, rfl, rfl⟩
  · obtain ⟨hcnt, htovr⟩ := after_overrun s hi
    exact Or.inl ⟨htovr, hcnt⟩

/-- The saturating increment never goes down (R160 row 11). -/
theorem le_satInc (n : BitVec 16) : n.toNat ≤ (satInc n).toNat := by
  rw [satInc_toNat]
  have := n.isLt
  omega

end Sys2Proof.Machine

namespace Sys2Proof.StateItems

open Sys2Proof.Machine

/-- Settles O38: one rule of ownership for each group of items. -/
theorem onlyTheOwnerWrites : Obligations.OnlyTheOwnerWrites := by
  intro i s
  obtain ⟨hillop, hinputs⟩ := after_illop_inputs s i
  refine ⟨after i s, exec_eq_after i s, after_queueTail s, fun hi => ?_, fun hp hi => ?_, fun ha ho hi => ?_,
    fun hi hn hr hf hc => ?_, after_overrun s, hillop, hinputs⟩
  · obtain ⟨hhead, hshift, hendm⟩ := after_encoder s fun h => absurd h hi
    exact ⟨hhead, hshift, hendm, after_sampler s hi⟩
  · exact after_qcnt s hp fun h => absurd h hi
  · exact after_key s ha ho fun h => absurd h hi
  · have hy : ∀ y, i ≠ symbolInstr y
      | .nochg => hn
      | .rev180 => hr
      | .coff => hf
      | .con => hc
    exact after_psm s hy fun h => absurd h hi

/-- Settles O60: a step waits, serves a reserved word, which writes ILLOP only, or serves an operation; what an operation
changes is its own by the rules of ownership, and its word is its encoding. -/
theorem thePortIsTheOnlyWayIn : Obligations.ThePortIsTheOnlyWayIn := by
  intro c s hreset
  rcases stepOf_cases s with ⟨hin, h⟩ | ⟨rest, hin, h⟩ | ⟨i, w, rest, hin, hw, h⟩ | ⟨w, rest, hin, ha, h⟩
  · exact ⟨s, h, by simp [hin]⟩
  · exact absurd (by rw [hin]; rfl) hreset
  · refine ⟨_, h, ?_⟩
    have hword : ∀ {j : Instr} {v : OpWord}, encode j = .cmd v → w ≠ v → i ≠ j :=
      fun hj hne hi => hne (word_eq_of_encode hw hj hi)
    have hsym : ∀ y, i ≠ symbolInstr y := fun y hi => encode_symbolInstr_ne_cmd y w (hi ▸ hw)
    have hpush : ¬(∃ b : Byte, w = 0x2#4 ++ b) → ∀ b, i ≠ .push b := fun hne b => hword rfl fun hb => hne ⟨b, hb⟩
    have hbdry : ¬(w = 0x100#12 ∧ s.ramp.val + 1 = c.symlen) → i = .tick → s.ramp.val + 1 ≠ c.symlen :=
      fun hne hi hr => hne ⟨word_eq_of_encode hw rfl hi, hr⟩
    obtain ⟨hillop, hinputs⟩ := after_illop_inputs (s.setInputs rest) i
    simp only [hin, List.head?_cons, List.tail_cons, Option.some.injEq, Input.word.injEq]
    refine ⟨hinputs, fun hch => ?_, fun hch => ?_, fun hch => ?_, fun hch => ?_, fun hch => ?_, fun hch => ?_,
      fun hch => absurd hillop hch⟩ <;> by_contra hno
    · have hpsm := after_psm (s.setInputs rest) hsym (hbdry hno)
      have henc := after_encoder (s.setInputs rest) (hbdry hno)
      simp [hpsm, henc] at hch
    · simp [after_sampler (s.setInputs rest) (hword rfl hno)] at hch
    · simp [after_queueTail (s.setInputs rest) (hpush hno)] at hch
    · rw [not_or] at hno
      exact hch (after_qcnt (s.setInputs rest) (hpush hno.1) (hbdry hno.2))
    · rw [not_or, not_or] at hno
      exact hch (after_key (s.setInputs rest) (hword rfl hno.1) (hword rfl hno.2.1) (hbdry hno.2.2))
    · simp [after_overrun (s.setInputs rest) (hword rfl hno)] at hch
  · exact ⟨_, h, by simp [reservedOp, hin, ha]⟩

/-- Settles O36: the records are written by TICKOVR, by a rejected PUSH and by a reserved word, and only upwards. -/
theorem errorRecordsAreSticky : Obligations.ErrorRecordsAreSticky := by
  intro s hreset
  rw [step_eq_stepOf]
  rcases stepOf_cases s with ⟨hin, h⟩ | ⟨rest, hin, h⟩ | ⟨i, w, rest, hin, hw, h⟩ | ⟨w, rest, hin, ha, h⟩
  · exact ⟨s, h, by simp⟩
  · exact absurd (by rw [hin]; rfl) hreset
  · refine ⟨_, h, ?_⟩
    have hqovf := after_qovf_cases i (s.setInputs rest)
    have hover := after_overrun_cases i (s.setInputs rest)
    obtain ⟨hillop, -⟩ := after_illop_inputs (s.setInputs rest) i
    refine ⟨fun hq => ?_, fun ht => ?_, fun hl => hillop.trans hl, ?_, fun hch => ?_, fun hch => ?_,
      fun hch => absurd hillop hch⟩
    · rcases hqovf with hkept | ⟨-, -, hset⟩
      · exact hkept.trans hq
      · exact hset
    · rcases hover with ⟨hkept, -⟩ | ⟨-, hset, -⟩
      · exact hkept.trans ht
      · exact hset
    · rcases hover with ⟨-, hkept⟩ | ⟨-, -, hinc⟩
      · exact (congrArg BitVec.toNat hkept).ge
      · exact (le_satInc s.ovrcnt).trans (congrArg BitVec.toNat hinc).ge
    · obtain ⟨⟨b, hi⟩, hfull, -⟩ := hqovf.resolve_left hch
      exact ⟨hfull, b, rest, by rw [hin, word_eq_of_encode hw rfl hi]⟩
    · obtain ⟨hi, -⟩ := hover.resolve_left fun hkept => hch hkept.1
      exact ⟨rest, by rw [hin, word_eq_of_encode hw rfl hi]⟩
  · exact ⟨_, h, by simp [reservedOp, hin, ha]⟩

end Sys2Proof.StateItems
end

section
/-! PROOF. The invariants (spec/10_state.md R41 to R45, R193): each named update keeps them, hence each operation, hence each
step, in every configuration. A symbol by itself does not (COFF while RUNNING breaks R43); the symbol period that NEXTSYM
begins does. -/

namespace Sys2Proof.Machine

variable {c : Configuration}

/-! ### The transition table -/

/-- The segment that the table selects ends at the rest level of the next phase, on each channel (R133). -/
theorem segEnd_transTable (y : Symbol) (p : Phase) :
    segEnd (transTable y p).1 = restI (transTable y p).2.2 ∧ segEnd (transTable y p).2.1 = restQ (transTable y p).2.2 := by
  cases y <;> cases p <;> exact ⟨rfl, rfl⟩

/-- From a reachable phase the table selects one segment for both channels and leads to a reachable phase (R44). -/
theorem transTable_reachable (y : Symbol) (p : Phase) (hp : p = .phoff ∨ p = .ph0 ∨ p = .ph180) :
    (transTable y p).1 = (transTable y p).2.1 ∧
    ((transTable y p).2.2 = .phoff ∨ (transTable y p).2.2 = .ph0 ∨ (transTable y p).2.2 = .ph180) := by
  rcases hp with rfl | rfl | rfl <;> cases y <;> decide

/-- CON leads to a phase with the carrier on (R138). -/
theorem transTable_con_ne_phoff (p : Phase) : (transTable .con p).2.2 ≠ .phoff := by
  cases p <;> decide

/-- A data symbol keeps the carrier on where it is on (R135, R136). -/
theorem transTable_data_ne_phoff {y : Symbol} {p : Phase} (hy : y = .nochg ∨ y = .rev180) (hp : p ≠ .phoff) :
    (transTable y p).2.2 ≠ .phoff := by
  revert hp
  rcases hy with rfl | rfl <;> cases p <;> decide

/-! ### NEXTSYM -/

/-- The indices of the queue agree after a byte has left it (R41). -/
theorem index_dequeue {q head cnt tail : Nat} (hpos : 0 < cnt) (h : tail = (head + cnt) % q) :
    tail = ((head + 1) % q + (cnt - 1)) % q := by
  rw [Nat.mod_add_mod, h]
  congr 1
  omega

/-- The indices of the queue agree after a byte has been appended (R41). -/
theorem index_enqueue {q head cnt tail : Nat} (h : tail = (head + cnt) % q) :
    (tail + 1) % q = (head + (cnt + 1)) % q := by
  rw [h, Nat.mod_add_mod, Nat.add_assoc]

/-- POP keeps the agreement of the indices. -/
theorem pop_queue (s : State.Of c) (h : s.qtail.val = (s.qhead.val + s.qcnt.val) % c.qcap) :
    s.qtail.val = ((pop s).2.qhead.val + (pop s).2.qcnt.val) % c.qcap := by
  rcases pop_cases s with ⟨-, hpop⟩ | ⟨hpos, hpop⟩
  · rw [hpop]; exact h
  · rw [hpop]; exact index_dequeue hpos h

/-- NEXTSYM keeps the agreement of the indices: only PATH_LOAD touches them, through POP. -/
theorem nextSym_queue (s : State.Of c) (h : s.qtail.val = (s.qhead.val + s.qcnt.val) % c.qcap) :
    s.qtail.val = ((nextSym s).2.qhead.val + (nextSym s).2.qcnt.val) % c.qcap := by
  rcases nextSym_cases s with ⟨-, hn⟩ | ⟨-, hn⟩ | ⟨-, -, -, hn⟩ | ⟨-, -, -, hn⟩ | ⟨-, -, -, hn⟩ | ⟨-, -, -, hn⟩ <;>
    rw [hn]
  case inr.inr.inr.inl => exact pop_queue s h
  all_goals exact h

/-- NEXTSYM keeps R42: ENDM is set only where the shift empties SHIFT, and SHIFT is filled only where ENDM is clear. -/
theorem nextSym_encoder (s : State.Of c) (h : s.endm = true → s.shift = 0#c.srw) :
    (nextSym s).2.endm = true → (nextSym s).2.shift = 0#c.srw := by
  rcases nextSym_cases s with ⟨-, hn⟩ | ⟨-, hn⟩ | ⟨-, hs, -, hn⟩ | ⟨-, -, he, hn⟩ | ⟨-, -, hz, hn⟩ | ⟨-, hs, -, hn⟩ <;>
    rw [hn] <;> intro hendm
  · exact h hendm
  · exact h hendm
  · exact hs
  · rw [pop_frame] at hendm
    exact absurd (he.symm.trans hendm) Bool.false_ne_true
  · exact hz
  · exact absurd (h hendm) hs

/-- After NEXTSYM the block is RUNNING only where its symbol leads to a phase with the carrier on (R43): the symbol is CON, or
a data symbol of a block that was RUNNING. -/
theorem nextSym_keying (s : State.Of c) (h : s.key = .running → s.phase ≠ .phoff) :
    (nextSym s).2.key = .running → (transTable (nextSym s).1 s.phase).2.2 ≠ .phoff := by
  have hdata : ∀ b : Bool, (if b then Symbol.nochg else Symbol.rev180) = .nochg ∨
      (if b then Symbol.nochg else Symbol.rev180) = .rev180 := by decide
  rcases nextSym_cases s with ⟨hk, hn⟩ | ⟨-, hn⟩ | ⟨hk, -, -, hn⟩ | ⟨hk, -, -, hn⟩ | ⟨hk, -, -, hn⟩ | ⟨hk, -, -, hn⟩ <;>
    rw [hn] <;> intro hrun
  · exact absurd (hk.symm.trans hrun) (by decide)
  · exact transTable_con_ne_phoff s.phase
  · exact transTable_data_ne_phoff (Or.inr rfl) (h hk)
  · exact transTable_data_ne_phoff (Or.inr rfl) (h hk)
  · exact transTable_data_ne_phoff (hdata _) (h hk)
  · exact transTable_data_ne_phoff (hdata _) (h hk)

/-- A saturating increment is never 0, so that TOVR still agrees with OVRCNT (R193). -/
theorem satInc_ne_zero (n : BitVec 16) : satInc n ≠ 0#16 := by
  intro h
  have hzero : 0 = min (n.toNat + 1) 65535 := by rw [← satInc_toNat, h]; rfl
  omega

/-! ### Each update keeps the invariants -/

namespace Invariants

variable {s : State.Of c}

/-- The response word is in no invariant. -/
protected theorem respond (h : Invariants s) (r : Response) : Invariants (s.respond r) := { h with }

/-- What waits at the port is in no invariant. -/
protected theorem setInputs (h : Invariants s) (l : List Input) : Invariants (s.setInputs l) := { h with }

/-- RAMP is in no invariant. -/
protected theorem setRamp (h : Invariants s) (k : Fin c.symlen) : Invariants (s.setRamp k) := { h with }

/-- KEY may be set where it does not become RUNNING without a carrier (R43). -/
protected theorem setKey (h : Invariants s) {k : Key} (hk : k = .running → s.phase ≠ .phoff) :
    Invariants (s.setKey k) := { h with keying := hk }

/-- The samples of equal segments are equal (R44). -/
protected theorem emitPair (h : Invariants s) : Invariants (emitPair s) :=
  { h with outs := congrArg (sRead · s.ramp) h.segs }

/-- An accepted byte keeps the invariants (R41, R170). -/
protected theorem enqueue (h : Invariants s) (b : Byte) (hfree : s.qcnt.val < c.qcap) : Invariants (s.enqueue b) :=
  { h with
    queue := by
      rw [State.Of.enqueue_qtail, State.Of.enqueue_qhead, State.Of.enqueue_qcnt, countUp_val s.qcnt hfree]
      exact index_enqueue h.queue
    memory := Memory.wf_write s.qbuf s.qtail.val b h.memory
    slots := Memory.within_write c.qcap s.qbuf s.qtail.val b s.qtail.isLt h.slots }

/-- Recording an error keeps the invariants (R193). -/
protected theorem recordError (h : Invariants s) (e : ErrorCond) : Invariants (recordError e s) := by
  cases e with
  | queueOverrun => exact { h with }
  | tickOverrun => exact { h with overrun := (decide_eq_true (satInc_ne_zero s.ovrcnt)).symm }
  | reservedWord => exact { h with }

/-- One symbol period keeps the invariants (R110, R130). -/
protected theorem symbolStep (h : Invariants s) : Invariants (symbolStep s) := by
  obtain ⟨hsegs, hphase⟩ := transTable_reachable (nextSym s).1 s.phase h.phase
  obtain ⟨hendI, hendQ⟩ := segEnd_transTable (nextSym s).1 s.phase
  rw [symbolStep_eq]
  exact
    { queue := by simpa using nextSym_queue s h.queue
      memory := by simpa using h.memory
      slots := by simpa using h.slots
      encoder := nextSym_encoder s h.encoder
      keying := nextSym_keying s h.keying
      phase := hphase
      segs := hsegs
      outs := by simpa using h.outs
      contI := hendI
      contQ := hendQ
      overrun := by simpa using h.overrun }

/-- TICK keeps the invariants (R150). -/
theorem after_tick (h : Invariants s) : Invariants (after .tick s) := by
  rcases ramp_below_or_boundary s with hr | hr
  · rw [after_tick_below s hr]
    exact (h.emitPair.setRamp _).respond _
  · rw [after_tick_boundary s hr]
    exact (h.emitPair.setRamp _).symbolStep.respond _

/-- Every operation of the port keeps the invariants. -/
theorem after_operation (h : Invariants s) {i : Instr} {w : OpWord} (hi : encode i = .cmd w) : Invariants (after i s) := by
  cases i with
  | tick => exact h.after_tick
  | push b =>
    rcases qcnt_lt_or_eq s with hq | hq
    · rw [after_push_accepted b s hq]
      exact (h.enqueue b hq).respond _
    · rw [after_push_rejected b s hq]
      exact (h.recordError .queueOverrun).respond _
  | txstart =>
    rw [after_txstart]
    refine Invariants.respond (h.setKey ?_) _
    split
    · exact fun hk => absurd hk (by decide)
    · exact h.keying
  | txstop =>
    rw [after_txstop]
    exact Invariants.respond (h.setKey fun hk => absurd hk (by decide)) _
  | rdstat =>
    rw [after_rdstat]
    exact h.respond _
  | tickovr =>
    rw [after_tickovr]
    exact (h.recordError .tickOverrun).respond _
  | nochg | rev180 | coff | con => cases hi

/-- A reserved word keeps the invariants (R176). -/
protected theorem reservedOp (h : Invariants s) (w : OpWord) : Invariants (reservedOp w s) :=
  (h.recordError .reservedWord).respond _

/-- The state after reset has the invariants (R47). -/
theorem reset (c : Configuration) : Invariants (State.Of.reset c) where
  queue := (Nat.zero_mod c.qcap).symm
  memory := rfl
  slots := rfl
  encoder := fun _ => rfl
  keying := fun h => absurd h Key.noConfusion
  phase := Or.inl rfl
  segs := rfl
  outs := rfl
  contI := rfl
  contQ := rfl
  overrun := rfl

/-- The reset event establishes all invariants but those of QBUF, which it keeps (R210). -/
protected theorem resetEvent (h : Invariants s) : Invariants (resetEvent s) :=
  { reset c with memory := h.memory, slots := h.slots }

/-- Every step keeps the invariants. -/
theorem stepOf_next (h : Invariants s) {t : State.Of c} (ht : stepOf c s = .next t) : Invariants t := by
  rcases stepOf_cases s with ⟨-, hs⟩ | ⟨rest, -, hs⟩ | ⟨i, w, rest, -, hw, hs⟩ | ⟨w, rest, -, -, hs⟩ <;>
    cases hs.symm.trans ht
  · exact h
  · exact (h.setInputs rest).resetEvent
  · exact (h.setInputs rest).after_operation hw
  · exact (h.setInputs rest).reservedOp w

end Invariants

end Sys2Proof.Machine

namespace Sys2Proof.StateItems

open Sys2Proof.Machine

/-- Settles O49: `Invariants.stepOf_next`, one case for each thing a step can do. -/
theorem everyConfigurationKeepsTheInvariants : Obligations.EveryConfigurationKeepsTheInvariants :=
  fun _ _ _ h ht => h.stepOf_next ht

/-- Settles O45: this hardware is one configuration. -/
theorem everyStepKeepsTheInvariants : Obligations.EveryStepKeepsTheInvariants :=
  fun s _ h ht => h.stepOf_next ((step_eq_stepOf s).symm.trans ht)

/-- Settles O44: this hardware is one configuration. -/
theorem invariantsHoldAtReset : Obligations.InvariantsHoldAtReset := Invariants.reset Config.hardware

end Sys2Proof.StateItems
end

section
/-! PROOF. RAMP and the symbol boundaries under uninterrupted TICKs (spec/10_state.md R46), in every configuration. -/

namespace Sys2Proof.Machine

variable {c : Configuration}

/-- A TICK advances RAMP by one modulo SYMLEN (R150 steps 2 and 3). -/
theorem after_tick_ramp (s : State.Of c) : (after .tick s).ramp.val = (s.ramp.val + 1) % c.symlen := by
  rcases ramp_below_or_boundary s with h | h
  · rw [after_tick_below s h, Nat.mod_eq_of_lt h]
    rfl
  · rw [after_tick_boundary s h, symbolStep_eq, h, Nat.mod_self]
    simp

/-- n TICKs advance RAMP by n modulo SYMLEN (R46). -/
theorem ticks_ramp (n : Nat) (s : State.Of c) : (ticks n s).ramp.val = (s.ramp.val + n) % c.symlen := by
  induction n generalizing s with
  | zero => exact (Nat.mod_eq_of_lt s.ramp.isLt).symm
  | succ n ih => rw [ticks, ih, after_tick_ramp, Nat.mod_add_mod, Nat.add_assoc, Nat.add_comm 1 n]

/-- n TICKs call NEXTSYM once for each whole symbol length passed (R46, R153). -/
theorem boundaries_eq (n : Nat) (s : State.Of c) : boundaries n s = (s.ramp.val + n) / c.symlen := by
  induction n generalizing s with
  | zero => exact (Nat.div_eq_of_lt s.ramp.isLt).symm
  | succ n ih =>
    have hsum : s.ramp.val + (n + 1) = s.ramp.val + 1 + n := by omega
    rw [boundaries, ih, after_tick_ramp, hsum]
    rcases ramp_below_or_boundary s with h | h
    · rw [if_neg fun hb => h.ne ((atBoundary_iff_of s).mp hb), Nat.mod_eq_of_lt h, Nat.zero_add]
    · rw [if_pos ((atBoundary_iff_of s).mpr h), h, Nat.mod_self, Nat.zero_add, Nat.add_div_left n c.symlen_pos,
        Nat.add_comm]

end Sys2Proof.Machine

namespace Sys2Proof.StateItems

open Sys2Proof.Machine

/-- Settles O14: `ticks_ramp` and `boundaries_eq` at SYMLEN 256. -/
theorem rampCountsTicksAndBoundaries : Obligations.RampCountsTicksAndBoundaries :=
  fun n s => ⟨ticks_ramp n s, boundaries_eq n s⟩

end Sys2Proof.StateItems
end

section
/-! PROOF. STATUS (spec/10_state.md R35) and the state after reset (R47). -/

namespace Sys2Proof.Machine

variable {c : Configuration}

/-- A slice above the lowest bit of a word is a slice of what stands above that bit. -/
theorem slice_skip_bit {n : Nat} (x : BitVec n) (b : BitVec 1) (k l : Nat) :
    (x ++ b).extractLsb' (k + 1) l = x.extractLsb' k l :=
  slice_append_high n 1 x b (k + 1) k l (Nat.add_comm k 1)

section Status

variable (s : State.Of c)

theorem statusWord_qempty : (statusWord s).extractLsb' 0 1 = BitVec.ofBool (queueEmpty s) := by
  simp only [statusWord, slice_append_low]

theorem statusWord_qfull : (statusWord s).extractLsb' 1 1 = BitVec.ofBool (queueFull s) := by
  simp only [statusWord, slice_skip_bit, slice_append_low]

theorem statusWord_qovf : (statusWord s).extractLsb' 2 1 = BitVec.ofBool s.qovf := by
  simp only [statusWord, slice_skip_bit, slice_append_low]

theorem statusWord_tovr : (statusWord s).extractLsb' 3 1 = BitVec.ofBool s.tovr := by
  simp only [statusWord, slice_skip_bit, slice_append_low]

theorem statusWord_illop : (statusWord s).extractLsb' 4 1 = BitVec.ofBool s.illop := by
  simp only [statusWord, slice_skip_bit, slice_append_low]

theorem statusWord_endm : (statusWord s).extractLsb' 5 1 = BitVec.ofBool s.endm := by
  simp only [statusWord, slice_skip_bit, slice_append_low]

theorem statusWord_key : (statusWord s).extractLsb' 6 2 = keyCode s.key := by
  simp only [statusWord, slice_skip_bit, slice_append_low]

theorem statusWord_phase : (statusWord s).extractLsb' 8 3 = phaseCode s.phase := by
  simp only [statusWord, slice_skip_bit]
  rw [slice_append_high _ 2 _ _ 2 0 3 rfl, slice_append_low]

theorem statusWord_qcnt : (statusWord s).extractLsb' 11 5 = BitVec.ofNat 5 s.qcnt.val := by
  simp only [statusWord, slice_skip_bit]
  rw [slice_append_high _ 2 _ _ 5 3 5 rfl, slice_append_high _ 3 _ _ 3 0 5 rfl, slice_append_low]

theorem statusWord_ovrcnt : (statusWord s).extractLsb' 16 16 = s.ovrcnt := by
  simp only [statusWord, slice_skip_bit]
  rw [slice_append_high _ 2 _ _ 10 8 16 rfl, slice_append_high _ 3 _ _ 8 5 16 rfl,
    slice_append_high _ 5 _ _ 5 0 16 rfl]
  exact BitVec.extractLsb'_eq_self

/-- QCNT fits its five bits, whatever QCAP is (R8). -/
theorem statusWord_qcnt_toNat : ((statusWord s).extractLsb' 11 5).toNat = s.qcnt.val := by
  have hcap := c.legal.qcap_le
  have hlt := s.qcnt.isLt
  rw [statusWord_qcnt, BitVec.toNat_ofNat]
  exact Nat.mod_eq_of_lt (by simp only [Configuration.qcap] at hlt; omega)

/-- The queue has a slot, so it is not both empty and full (R23). -/
theorem not_empty_and_full : ¬(queueEmpty s = true ∧ queueFull s = true) := by
  have hpos := c.qcap_pos
  simp only [queueEmpty, queueFull, decide_eq_true_eq]
  omega

/-- QEMPTY and QFULL are never both 1 (R23, R35). -/
theorem statusWord_low_ne_three : (statusWord s).extractLsb' 0 2 ≠ 3#2 := by
  intro h
  have hbit : ∀ k, k + 1 ≤ 2 → (statusWord s).extractLsb' k 1 = (3#2).extractLsb' k 1 := fun k hk => by
    rw [← BitVec.extractLsb'_extractLsb'_of_le hk, h]
  have hempty := (statusWord_qempty s).symm.trans (hbit 0 (by decide))
  have hfull := (statusWord_qfull s).symm.trans (hbit 1 (by decide))
  exact not_empty_and_full s
    ⟨(BitVec.ofBool_eq_iff_eq (b' := true)).mp hempty, (BitVec.ofBool_eq_iff_eq (b' := true)).mp hfull⟩

end Status

/-- In every configuration STATUS after reset has QEMPTY and the code of PHOFF only (R47). -/
theorem statusWord_reset (c : Configuration) : statusWord (State.Of.reset c) = 0x00000401#32 := by
  have hfull : queueFull (State.Of.reset c) = false := decide_eq_false c.qcap_pos.ne
  have hempty : queueEmpty (State.Of.reset c) = true := decide_eq_true rfl
  rw [statusWord, hfull, hempty]
  simp [State.Of.reset, phaseCode, keyCode]

end Sys2Proof.Machine

namespace Sys2Proof.StateItems

open Sys2Proof.Machine

/-- Settles O33: one slice of the concatenation for each field. -/
theorem statusFieldsStandAtTheirBits : Obligations.StatusFieldsStandAtTheirBits :=
  fun s => ⟨statusWord_qempty s, statusWord_qfull s, statusWord_qovf s, statusWord_tovr s, statusWord_illop s,
    statusWord_endm s, statusWord_key s, statusWord_phase s, statusWord_qcnt_toNat s, statusWord_ovrcnt s,
    statusWord_low_ne_three s⟩

/-- Settles O48: the invariants one by one, and the fields of STATUS. -/
theorem everyConfigurationStartsInTheInvariants : Obligations.EveryConfigurationStartsInTheInvariants :=
  fun c => ⟨Invariants.reset c, statusWord_reset c⟩

/-- Settles O5: the rows of the table are the fields of `State.Of.reset`, and STATUS is that of every configuration. -/
theorem resetLeavesTheTabledState : Obligations.ResetLeavesTheTabledState :=
  ⟨rfl, rfl, rfl, rfl, rfl, rfl, rfl, rfl, rfl, rfl, rfl, rfl, rfl, rfl, rfl, rfl, statusWord_reset Config.hardware⟩

end Sys2Proof.StateItems
end

section
/-! PROOF. Noninterference of the diagnostics (spec/10_state.md R37): every operation commutes with overwriting them, the
waiting inputs and the last response. -/

namespace Sys2Proof.Machine

variable {c : Configuration}

/-- The state with the diagnostics, the waiting inputs and the last response of another one. -/
def State.Of.withDiagnosticsOf (s t : State.Of c) : State.Of c :=
  { s with ovrcnt := t.ovrcnt, qovf := t.qovf, tovr := t.tovr, illop := t.illop, inputs := t.inputs,
           response := t.response }

/-- States differ at most in the diagnostics when one becomes the other by overwriting them. -/
theorem sameButDiagnostics_iff (s t : State.Of c) : sameButDiagnostics s t ↔ s.withDiagnosticsOf t = t := Iff.rfl

section Commute

variable (s d : State.Of c)

@[simp] theorem withDiagnosticsOf_key : (s.withDiagnosticsOf d).key = s.key := rfl
@[simp] theorem withDiagnosticsOf_shift : (s.withDiagnosticsOf d).shift = s.shift := rfl
@[simp] theorem withDiagnosticsOf_endm : (s.withDiagnosticsOf d).endm = s.endm := rfl
@[simp] theorem withDiagnosticsOf_qcnt : (s.withDiagnosticsOf d).qcnt = s.qcnt := rfl

/-- POP reads no diagnostics (R114). -/
theorem pop_withDiagnosticsOf : pop (s.withDiagnosticsOf d) = ((pop s).1, (pop s).2.withDiagnosticsOf d) := by
  unfold pop
  by_cases h : s.qcnt.val = 0
  · simp only [withDiagnosticsOf_qcnt, h, if_true]
  · simp only [withDiagnosticsOf_qcnt, h, if_false]; rfl

/-- NEXTSYM reads no diagnostics (R110 to R117). -/
theorem nextSym_withDiagnosticsOf :
    nextSym (s.withDiagnosticsOf d) = ((nextSym s).1, (nextSym s).2.withDiagnosticsOf d) := by
  unfold nextSym
  rw [withDiagnosticsOf_key]
  cases s.key with
  | stopped => rfl
  | starting => rfl
  | running =>
    by_cases hs : s.shift = 0#c.srw
    · cases he : s.endm
      · simp only [armData, withDiagnosticsOf_shift, withDiagnosticsOf_endm, hs, he, if_true, Bool.false_eq_true,
          if_false, pathLoad, pop_withDiagnosticsOf]
        rfl
      · simp only [armData, withDiagnosticsOf_shift, withDiagnosticsOf_endm, hs, he, if_true]
        rfl
    · simp only [armData, pathShift, withDiagnosticsOf_shift, hs, if_false]
      by_cases hz : shl1 s.shift = 0#c.srw
      · simp only [hz, if_true]; rfl
      · simp only [hz, if_false]; rfl

/-- One symbol period reads no diagnostics. -/
theorem symbolStep_withDiagnosticsOf :
    symbolStep (s.withDiagnosticsOf d) = (symbolStep s).withDiagnosticsOf d := by
  simp only [symbolStep, nextSym_withDiagnosticsOf]
  rfl

/-- What an instruction leaves beside the diagnostics does not depend on them. -/
theorem after_withDiagnosticsOf (i : Instr) (e : State.Of c) :
    (after i (s.withDiagnosticsOf d)).withDiagnosticsOf e = (after i s).withDiagnosticsOf e := by
  cases i with
  | tick =>
    rcases ramp_below_or_boundary s with h | h
    · rw [after_tick_below s h, after_tick_below (s.withDiagnosticsOf d) h]; rfl
    · rw [after_tick_boundary s h, after_tick_boundary (s.withDiagnosticsOf d) h]
      have hstart : (emitPair (s.withDiagnosticsOf d)).setRamp ⟨0, c.symlen_pos⟩ =
          ((emitPair s).setRamp ⟨0, c.symlen_pos⟩).withDiagnosticsOf d := rfl
      rw [hstart, symbolStep_withDiagnosticsOf]
      rfl
  | push b =>
    rcases qcnt_lt_or_eq s with h | h
    · rw [after_push_accepted b s h, after_push_accepted b (s.withDiagnosticsOf d) h]; rfl
    · rw [after_push_rejected b s h, after_push_rejected b (s.withDiagnosticsOf d) h]; rfl
  | txstart => rw [after_txstart, after_txstart]; rfl
  | _ => rfl

/-- The answer of every operation but RDSTAT does not depend on the diagnostics. -/
theorem after_response_withDiagnosticsOf (i : Instr) {w : OpWord} (hw : encode i = .cmd w) (hi : i ≠ .rdstat) :
    (after i (s.withDiagnosticsOf d)).response = (after i s).response := by
  cases i with
  | tick => rw [after_tick, after_tick]; rfl
  | push b =>
    rcases qcnt_lt_or_eq s with h | h
    · rw [after_push_accepted b s h, after_push_accepted b (s.withDiagnosticsOf d) h]; rfl
    · rw [after_push_rejected b s h, after_push_rejected b (s.withDiagnosticsOf d) h]; rfl
  | txstart => rw [after_txstart, after_txstart]; rfl
  | txstop | tickovr => rfl
  | rdstat => exact absurd rfl hi
  | nochg | rev180 | coff | con => cases hw

end Commute

/-- In states that differ at most in the diagnostics every instruction leaves such states (R37). -/
theorem sameButDiagnostics_after (i : Instr) {s t : State.Of c} (h : sameButDiagnostics s t) :
    sameButDiagnostics (after i s) (after i t) := by
  rw [sameButDiagnostics_iff] at h ⊢
  calc (after i s).withDiagnosticsOf (after i t)
      = (after i (s.withDiagnosticsOf t)).withDiagnosticsOf (after i t) := (after_withDiagnosticsOf s t i _).symm
    _ = (after i t).withDiagnosticsOf (after i t) := by rw [h]
    _ = after i t := rfl

/-- In states that differ at most in the diagnostics every operation but RDSTAT answers alike (R37). -/
theorem response_eq_of_sameButDiagnostics {i : Instr} {w : OpWord} (hw : encode i = .cmd w) (hi : i ≠ .rdstat)
    {s t : State.Of c} (h : sameButDiagnostics s t) : (after i s).response = (after i t).response := by
  rw [← (sameButDiagnostics_iff s t).mp h, after_response_withDiagnosticsOf s t i hw hi]

end Sys2Proof.Machine

namespace Sys2Proof.StateItems

open Sys2Proof.Machine

/-- Settles O37: `sameButDiagnostics_after`, and `response_eq_of_sameButDiagnostics` for each operation but RDSTAT. -/
theorem diagnosticsInfluenceNothing : Obligations.DiagnosticsInfluenceNothing := by
  intro i s t h
  refine ⟨after i s, after i t, exec_eq_after i s, exec_eq_after i t, sameButDiagnostics_after i h, fun hop => ?_⟩
  rcases hop with ⟨b, rfl⟩ | rfl | rfl | rfl | rfl <;>
    exact response_eq_of_sameButDiagnostics rfl Instr.noConfusion h

end Sys2Proof.StateItems
end

section
/-! PROOF. The decoder and the encoder (spec/30_encoding.md R80 to R86, R101): each undoes the other, and the words in the
image of the encoder are the words that fit a row of the table of R81. -/

namespace Sys2Proof

/-! ### Decoding after encoding -/

/-- The field `op` of a word made of two fields (R80). -/
@[simp] theorem opField_append (o : BitVec 4) (d : Byte) : opField (o ++ d) = o := by
  rw [opField, slice_append_high 4 8 o d 8 0 4 rfl, BitVec.extractLsb'_eq_self]

/-- The field `d` of a word made of two fields (R80). -/
@[simp] theorem dField_append (o : BitVec 4) (d : Byte) : dField (o ++ d) = d :=
  slice_append_low 4 8 o d

/-- A code is the code of the symbol it stands for (R86). -/
theorem encode_decodeSym (y : SymCode) : encode (decodeSym y) = .sym y := by
  revert y
  decide

/-- The decoder reads an encoding back whole, the operand of PUSH with it (R81, R82, R86). -/
@[simp] theorem decode_encode (i : Instr) : decode (encode i) = .instr i := by
  cases i with
  | push b => simp only [encode, decode, decodeCmd, opField_append, dField_append, if_true]
  | _ => rfl

/-- A word that decodes to an instruction is that instruction's encoding (R81, R86). -/
theorem encode_of_decode {p : InstrWord} {i : Instr} (h : decode p = .instr i) : encode i = p := by
  cases p with
  | cmd w => exact encode_of_decode_cmd h
  | sym y =>
    have hi : decodeSym y = i := Decoded.instr.inj h
    rw [← hi, encode_decodeSym]

/-! ### The rows of R81 and the reserved words -/

/-- Every word of PUSH fits its row: the mask keeps `op` and drops the operand (R81). -/
theorem push_word_fits (b : Byte) : (0x2#4 ++ b) &&& 0xF00#12 = 0x200#12 := by
  have hmask : (0x2#4 ++ b) &&& (0xF#4 ++ 0x00#8) = (0x2#4 &&& 0xF#4) ++ (b &&& 0x00#8) := BitVec.and_append
  rw [BitVec.and_zero] at hmask
  exact hmask

/-- An operation's word fits a row of the table (R81). -/
theorem assigned_of_encode {w : OpWord} {i : Instr} (h : encode i = .cmd w) : assigned w = true := by
  cases i with
  | push b =>
    obtain rfl := InstrWord.cmd.inj h
    simp [assigned, cmdRows, CmdRow.fits, push_word_fits]
  | tick | txstart | txstop | rdstat | tickovr => obtain rfl := InstrWord.cmd.inj h; rfl
  | nochg | rev180 | coff | con => cases h

/-- A word fits a row of the table exactly when it decodes to an instruction (R81, R101). -/
theorem assigned_iff_decode_instr (w : OpWord) : assigned w = true ↔ ∃ i, decode (.cmd w) = .instr i :=
  ⟨decode_of_assigned, fun ⟨_, hi⟩ => assigned_of_encode (encode_of_decode_cmd hi)⟩

/-- The decoder rejects a word under that word's own name (R83). -/
theorem eq_of_decode_reserved {w v : OpWord} (h : decode (.cmd w) = .reserved v) : v = w := by
  simp only [decode, decodeCmd] at h
  split_ifs at h <;> exact (Decoded.reserved.inj h).symm

/-- A word fits no row of the table exactly when the decoder rejects it by its name (R83, R101). -/
theorem not_assigned_iff_decode_reserved (w : OpWord) : assigned w = false ↔ decode (.cmd w) = .reserved w := by
  refine ⟨fun h => ?_, assigned_eq_false_of_decode_reserved⟩
  cases hd : decode (.cmd w) with
  | instr i => exact absurd ((assigned_iff_decode_instr w).mpr ⟨i, hd⟩) (Bool.eq_false_iff.mp h)
  | reserved v => rw [eq_of_decode_reserved hd]

end Sys2Proof

namespace Sys2Proof.Encoding

/-- Settles O1: `encode_of_decode` one way, `decode_encode` the other. -/
theorem decodeExactlyInvertsEncode : Obligations.DecodeExactlyInvertsEncode :=
  fun _ i => ⟨encode_of_decode, fun h => h ▸ decode_encode i⟩

/-- Settles O2: the rows of R81 are the image of the encoder, and every other word is rejected by its name. -/
theorem reservedExactlyWhenNoRowMatches : Obligations.ReservedExactlyWhenNoRowMatches :=
  fun w => ⟨not_assigned_iff_decode_reserved w, assigned_iff_decode_instr w⟩

/-- Settles O3: the assigned words are the encodings of their instructions, the two others fit no row. -/
theorem writtenOutWordsDecode : Obligations.WrittenOutWordsDecode :=
  ⟨decode_encode .tick, decode_encode (.push 0x41#8), decode_encode .txstart, decode_encode .txstop,
    decode_encode .rdstat, decode_encode .tickovr, (not_assigned_iff_decode_reserved _).mp (by decide),
    (not_assigned_iff_decode_reserved _).mp (by decide), decode_encode .nochg, decode_encode .rev180,
    decode_encode .coff, decode_encode .con⟩

end Sys2Proof.Encoding
end

section
/-! PROOF. The codes held in ROM words (spec/30_encoding.md R87, R90): the width of a code by its trailing zero bits, and the
shifts that use the code up (spec/44_arithmetic_and_absent_classes.md R162), for words of every width. -/

namespace Sys2Proof

variable {w : Nat} (e : BitVec w)

theorem codeTrailingZeros_le : codeTrailingZeros e ≤ w := by
  simpa [codeTrailingZeros] using List.findIdx_le_length (p := fun i => e.getLsbD i) (xs := List.range w)

/-- The trailing zeros are the low bits that are 0 (R87). -/
theorem le_codeTrailingZeros_iff {k : Nat} (hk : k ≤ w) :
    k ≤ codeTrailingZeros e ↔ ∀ i < k, e.getLsbD i = false := by
  cases k with
  | zero => simp
  | succ k =>
    rw [codeTrailingZeros, Nat.succ_le_iff, List.lt_findIdx_iff]
    simp [Nat.lt_of_succ_le hk]

/-- The zero word has only trailing zeros, so the width of the empty code is no exception to ctz (R87). -/
theorem codeTrailingZeros_zero : codeTrailingZeros 0#w = w :=
  Nat.le_antisymm (codeTrailingZeros_le _) ((le_codeTrailingZeros_iff _ le_rfl).mpr fun _ _ => BitVec.getLsbD_zero)

/-- width(e) = SRW - ctz(e), for the zero word too (R87). -/
theorem codeWidth_eq_sub : codeWidth e = w - codeTrailingZeros e := by
  unfold codeWidth
  split
  · next h => rw [h, codeTrailingZeros_zero, Nat.sub_self]
  · rfl

/-- A code has at most `n` bits exactly when everything below the top `n` bits of its word is 0 (R87). -/
theorem codeWidth_le_iff (n : Nat) : codeWidth e ≤ n ↔ ∀ i < w - n, e.getLsbD i = false := by
  rw [← le_codeTrailingZeros_iff e (Nat.sub_le w n), codeWidth_eq_sub]
  omega

/-- A left shift by `n` leaves nothing exactly when everything below the top `n` bits is 0. -/
theorem shiftLeft_eq_zero_iff_low (n : Nat) : e <<< n = 0#w ↔ ∀ i < w - n, e.getLsbD i = false := by
  constructor
  · intro h i hi
    have hbit : (e <<< n).getLsbD (i + n) = false := by rw [h, BitVec.getLsbD_zero]
    simpa [BitVec.getLsbD_shiftLeft, show i + n < w by omega, show i < w by omega] using hbit
  · intro h
    refine BitVec.eq_of_getLsbD_eq fun i hi => ?_
    rw [BitVec.getLsbD_shiftLeft, BitVec.getLsbD_zero]
    by_cases hn : i < n
    · simp [hn]
    · simp [h (i - n) (by omega)]

end Sys2Proof

namespace Sys2Proof.Machine

/-- `n` single shifts are one shift by `n` (R160 row 8). -/
theorem iterate_shl1 {w : Nat} (e : BitVec w) (n : Nat) : shl1^[n] e = e <<< n := by
  induction n with
  | zero => exact (BitVec.shiftLeft_zero e).symm
  | succ n ih => rw [Function.iterate_succ_apply', ih, shl1, BitVec.shiftLeft_add]

/-- A word is used up after as many single shifts as its code has bits, whatever its width (R87, R162). -/
theorem iterate_shl1_eq_zero_iff {w : Nat} (e : BitVec w) (n : Nat) : shl1^[n] e = 0#w ↔ codeWidth e ≤ n := by
  rw [iterate_shl1, shiftLeft_eq_zero_iff_low, codeWidth_le_iff]

end Sys2Proof.Machine

namespace Sys2Proof.Encoding

open Sys2Proof.Machine

/-- Settles O4: `iterate_shl1_eq_zero_iff` at SRW 20. -/
theorem shiftsEmptyAWordAfterItsWidth : Obligations.ShiftsEmptyAWordAfterItsWidth :=
  iterate_shl1_eq_zero_iff

/-- Settles O22: the ROM word of every configuration, at this hardware's FALLBACK_CODE. -/
theorem unmappedCharacterHasFallbackCode : Obligations.UnmappedCharacterHasFallbackCode :=
  fun b => code_eq_getD (c := Config.hardware) b

end Sys2Proof.Encoding
end

section
/-! PROOF. The default SHAPE (spec/30_encoding.md R94, R95, R97): the two checks of `Sys2Proof.Machine` on a SHAPE are what a
legal configuration satisfies, and this hardware is one. -/

namespace Sys2Proof.Machine

/-- A legal SHAPE of the sizes of this hardware passes the check of its end points (R94). -/
theorem shapeEndpoints_of_legal {p : Config.Params} (hp : p.Legal) (hl : p.symlen = Config.symlen)
    (ha : p.amp = Config.amp) (g : Seg) : shapeEndpoints p.shape g = true := by
  have hfirst := hp.shape_first g
  have hlast := hp.shape_last g
  rw [ha] at hfirst hlast
  rw [hl] at hlast
  simp only [shapeEndpoints, Bool.and_eq_true, beq_iff_eq]
  exact ⟨hfirst, hlast⟩

/-- A legal SHAPE of the sizes of this hardware passes the check of its range and of its constant segments (R95). -/
theorem shapeInRange_of_legal {p : Config.Params} (hp : p.Legal) (hl : p.symlen = Config.symlen)
    (ha : p.amp = Config.amp) (g : Seg) : shapeInRange p.shape g = true := by
  rw [shapeInRange, List.all_eq_true]
  intro k hk
  have hk' : k < p.symlen := by rw [hl]; exact List.mem_range.mp hk
  obtain ⟨hlow, hhigh⟩ := hp.shape_range g k hk'
  have hsteady := fun h => hp.shape_steady g h k hk'
  rw [ha] at hlow hhigh hsteady
  simp only [Bool.and_eq_true, decide_eq_true_eq, Bool.or_eq_true, bne_iff_ne, beq_iff_eq]
  exact ⟨⟨hlow, hhigh⟩, not_or_of_imp hsteady⟩

end Sys2Proof.Machine

namespace Sys2Proof.Encoding

open Sys2Proof.Machine

/-- Settles O42: the checks follow from the legality of this hardware's parameters, and a legal sample does not wrap. -/
theorem defaultShapeMeetsItsConstraints : Obligations.DefaultShapeMeetsItsConstraints :=
  fun g => ⟨shapeEndpoints_of_legal Config.hardwareParams_legal rfl rfl g,
    shapeInRange_of_legal Config.hardwareParams_legal rfl rfl g, sample_toInt (c := Config.hardware) g⟩

end Sys2Proof.Encoding
end

section
/-! PROOF. A TICK at a symbol boundary (spec/30_encoding.md R86, spec/42_sample_synthesizer.md R150): the symbol runs inside
the step. -/

namespace Sys2Proof.Machine

/-- Step 1 of a TICK reads the two samples of SHAPE, whatever the bias of the physical ROM (R63, R150). -/
theorem emitPair_eq {c : Configuration} (s : State.Of c) :
    emitPair s = s.setOut (c.sample s.segi s.ramp) (c.sample s.segq s.ramp) := by
  rw [emitPair, sRead_eq_sample, sRead_eq_sample]

/-- A symbol boundary is the meaning of the symbol that NEXTSYM returned, at the state NEXTSYM left (R86, R130). -/
theorem execOf_nextSym {c : Configuration} (s : State.Of c) :
    execOf (symbolInstr (nextSym s).1) (nextSym s).2 = .next (symbolStep s) :=
  execOf_symbolInstr _ _

/-- The step for a TICK presented at a symbol boundary, in every configuration: the pair is read, RAMP goes to 0 and one
symbol period passes (R9, R150). -/
theorem stepOf_tick_boundary {c : Configuration} (s : State.Of c) {rest : List Input}
    (hin : s.inputs = .word 0x100#12 :: rest) (hb : s.ramp.val + 1 = c.symlen) :
    stepOf c s = .next ((symbolStep (((s.setInputs rest).setOut (c.sample s.segi s.ramp)
      (c.sample s.segq s.ramp)).setRamp ⟨0, c.symlen_pos⟩)).respond
      (pairResponse (c.sample s.segi s.ramp) (c.sample s.segq s.ramp))) := by
  rw [stepOf, stepBy_instr execOf s hin (decode_encode .tick), execOf_eq_after,
    after_tick_boundary (s.setInputs rest) hb, emitPair_eq]
  rfl

end Sys2Proof.Machine

namespace Sys2Proof.Encoding

open Sys2Proof.Machine

/-- Settles O59: the instruction is the row of the symbol NEXTSYM returned, and the state it leaves is one symbol step. -/
theorem boundaryTickRunsTheSymbolOfNextSym : Obligations.BoundaryTickRunsTheSymbolOfNextSym := by
  intro s rest hin hb
  have hstep := (step_eq_stepOf s).trans (stepOf_tick_boundary s hin hb)
  rw [pairResponse_eq] at hstep
  exact ⟨_, _, ⟨decode_symbolCode _, (exec_eq_execOf _ _).trans (execOf_nextSym _)⟩, hstep⟩

end Sys2Proof.Encoding
end

section
/-! PROOF. The symbol encoder (spec/40_symbol_encoder.md R110 to R122): POP and NEXTSYM leaf by leaf, and the calls of NEXTSYM
that send one character, in every configuration. -/

namespace Sys2Proof.Machine

/-! ### Shifts of a code word -/

/-- One shift empties only the empty word and the word whose top bit stands alone (R116, R117). -/
theorem shl1_eq_zero_iff {w : Nat} (e : BitVec w) : shl1 e = 0#w ↔ e = 0#w ∨ e = BitVec.twoPow w (w - 1) := by
  rw [shl1, shiftLeft_eq_zero_iff_low]
  constructor
  · intro hlow
    have htop : e = if e.msb then BitVec.twoPow w (w - 1) else 0#w := by
      refine BitVec.eq_of_getLsbD_eq fun i hi => ?_
      by_cases hl : i < w - 1
      · cases e.msb <;> simp [hlow i hl, show w - 1 ≠ i by omega]
      · obtain rfl : i = w - 1 := by omega
        rw [← BitVec.msb_eq_getLsbD_last]
        cases e.msb <;> simp [hi]
    cases hm : e.msb with
    | false => rw [hm] at htop; exact Or.inl htop
    | true => rw [hm] at htop; exact Or.inr htop
  · rintro (rfl | rfl) i hi
    · exact BitVec.getLsbD_zero
    · simp [show w - 1 ≠ i by omega]

/-- A word that one shift empties had its top bit set. -/
theorem msb_of_shl1_eq_zero {w : Nat} {e : BitVec w} (hne : e ≠ 0#w) (hz : shl1 e = 0#w) : e.msb = true := by
  cases w with
  | zero => exact absurd BitVec.of_length_zero hne
  | succ w => rw [((shl1_eq_zero_iff e).mp hz).resolve_left hne]; simp [BitVec.msb_twoPow]

/-- Only the empty word holds a code of no bits (R87). -/
theorem codeWidth_eq_zero_iff {w : Nat} (e : BitVec w) : codeWidth e = 0 ↔ e = 0#w :=
  Nat.le_zero.symm.trans (iterate_shl1_eq_zero_iff e 0).symm

/-- A shift uses up one bit of a code (R87, R117). -/
theorem codeWidth_shl1 {w : Nat} (e : BitVec w) : codeWidth (shl1 e) = codeWidth e - 1 :=
  eq_of_forall_ge_iff fun n => by
    rw [← iterate_shl1_eq_zero_iff, ← Function.iterate_succ_apply, iterate_shl1_eq_zero_iff, Nat.sub_le_iff_le_add]

/-- The bit a shift uses up is the first in transmission order, and the others follow (R88). -/
theorem codeBits_eq_cons {w : Nat} {e : BitVec w} (h : e ≠ 0#w) : codeBits e = e.msb :: codeBits (shl1 e) := by
  have hpos : codeWidth e = codeWidth e - 1 + 1 := by
    have := mt (codeWidth_eq_zero_iff e).mp h
    omega
  have hbit : ∀ j, (shl1 e).getMsbD j = e.getMsbD (j + 1) := by
    intro j
    rw [shl1, BitVec.getMsbD_shiftLeft]
  rw [codeBits, codeBits, codeWidth_shl1, hpos, List.range_succ_eq_map]
  simp [hbit, Function.comp_def, BitVec.msb]

variable {c : Configuration}

/-! ### POP and NEXTSYM, leaf by leaf -/

section Leaves

variable {s : State.Of c}

/-- POP on an empty queue (R114). -/
theorem pop_empty (h : s.qcnt.val = 0) : pop s = (c.idleChar, s) := if_pos h

/-- POP on a queue that holds a byte (R114). -/
theorem pop_nonempty (h : 0 < s.qcnt.val) : pop s = (qRead s, s.dequeue) := if_neg h.ne'

/-- ARM_STOPPED (R111). -/
theorem nextSym_stopped (hk : s.key = .stopped) : nextSym s = (.coff, s) := by
  simpa [hk] using nextSym_cases s

/-- ARM_STARTING (R112). -/
theorem nextSym_starting (hk : s.key = .starting) : nextSym s = (.con, s.setKey .running) := by
  simpa [hk] using nextSym_cases s

/-- PATH_SEPARATOR (R115). -/
theorem nextSym_separator (hk : s.key = .running) (hs : s.shift = 0#c.srw) (he : s.endm = true) :
    nextSym s = (.rev180, s.setEndm false) := by
  simpa [hk, hs, he] using nextSym_cases s

/-- PATH_LOAD (R116). -/
theorem nextSym_load (hk : s.key = .running) (hs : s.shift = 0#c.srw) (he : s.endm = false) :
    nextSym s = (.rev180, (pop s).2.setShift (c.code (pop s).1)) := by
  simpa [hk, hs, he] using nextSym_cases s

/-- PATH_SHIFT where the shift empties SHIFT (R117). -/
theorem nextSym_shift_last (hk : s.key = .running) (hs : s.shift ≠ 0#c.srw) (hz : shl1 s.shift = 0#c.srw) :
    nextSym s = (symbolOfBit s.shift.msb, (s.setShift 0#c.srw).setEndm true) := by
  simpa [hk, hs, hz, symbolOfBit] using nextSym_cases s

/-- PATH_SHIFT where bits are left (R117). -/
theorem nextSym_shift_more (hk : s.key = .running) (hz : shl1 s.shift ≠ 0#c.srw) :
    nextSym s = (symbolOfBit s.shift.msb, s.setShift (shl1 s.shift)) := by
  have hs : s.shift ≠ 0#c.srw := fun h => hz ((shl1_eq_zero_iff s.shift).mpr (Or.inl h))
  simpa [hk, hs, hz, symbolOfBit] using nextSym_cases s

end Leaves

/-! ### The calls that send one character -/

/-- What is owed is sent: one symbol for each bit of the pending code, then the end-marker (R88, R115, R117, R120). With
nothing pending the end-marker alone is owed, which is where the induction over the width of the code starts. -/
theorem nextSyms_pending (s : State.Of c) (hk : s.key = .running) (howed : s.shift = 0#c.srw → s.endm = true) :
    nextSyms (codeWidth s.shift + 1) s =
      ((codeBits s.shift).map symbolOfBit ++ [.rev180], (s.setShift 0#c.srw).setEndm false) := by
  induction hn : codeWidth s.shift generalizing s with
  | zero =>
    have hs : s.shift = 0#c.srw := (codeWidth_eq_zero_iff _).mp hn
    have hbits : codeBits s.shift = [] := by rw [codeBits, hn]; rfl
    have hkeep : s.setShift 0#c.srw = s := by rw [← hs]; rfl
    rw [nextSyms, nextSym_separator hk hs (howed hs), hbits, hkeep]
    rfl
  | succ n ih =>
    have hs : s.shift ≠ 0#c.srw := fun h => by rw [(codeWidth_eq_zero_iff _).mpr h] at hn; omega
    have hwidth : codeWidth (shl1 s.shift) = n := by rw [codeWidth_shl1, hn]; rfl
    rw [nextSyms, codeBits_eq_cons hs]
    by_cases hz : shl1 s.shift = 0#c.srw
    · rw [nextSym_shift_last hk hs hz, ih ((s.setShift 0#c.srw).setEndm true) hk (fun _ => rfl) (hz ▸ hwidth), hz]
      rfl
    · rw [nextSym_shift_more hk hz, ih (s.setShift (shl1 s.shift)) hk (fun h => absurd h hz) hwidth]
      rfl

/-- A character whose code is empty costs its lead-in alone (R121, R122). -/
theorem nextSyms_character_empty (s : State.Of c) (hk : s.key = .running) (hs : s.shift = 0#c.srw) (he : s.endm = false)
    (hcode : c.code (pop s).1 = 0#c.srw) :
    nextSyms 1 s = ([.rev180], ((pop s).2.setShift 0#c.srw).setEndm false) := by
  have hendm : (pop s).2.endm = false := by rw [pop_frame]; exact he
  have hkeep : ((pop s).2.setShift 0#c.srw).setEndm false = (pop s).2.setShift 0#c.srw := by rw [← hendm]; rfl
  rw [nextSyms, nextSym_load hk hs he, hcode, hkeep]
  rfl

/-- A character costs its lead-in, its code symbols and its end-marker (R120, R121). -/
theorem nextSyms_character (s : State.Of c) (hk : s.key = .running) (hs : s.shift = 0#c.srw) (he : s.endm = false)
    (hcode : c.code (pop s).1 ≠ 0#c.srw) :
    nextSyms (codeWidth (c.code (pop s).1) + 2) s =
      ([.rev180] ++ (codeBits (c.code (pop s).1)).map symbolOfBit ++ [.rev180],
        ((pop s).2.setShift 0#c.srw).setEndm false) := by
  have hrun : ((pop s).2.setShift (c.code (pop s).1)).key = .running := by rw [pop_frame]; exact hk
  have hsend := nextSyms_pending _ hrun fun h => absurd h hcode
  rw [State.Of.setShift_shift] at hsend
  rw [nextSyms, nextSym_load hk hs he, hsend]
  rfl

/-! ### Keying off and on -/

/-- What is still to be sent: the pending bits, the owed separator and the queue (R119). -/
def State.Of.unsent (s : State.Of c) :
    BitVec c.srw × Bool × Memory × Fin c.qcap × Fin c.qcap × Fin (c.qcap + 1) :=
  (s.shift, s.endm, s.qbuf, s.qhead, s.qtail, s.qcnt)

/-- States agree on what is still to be sent when they agree item by item. -/
theorem unsent_eq_iff (s t : State.Of c) : s.unsent = t.unsent ↔
    s.shift = t.shift ∧ s.endm = t.endm ∧ s.qbuf = t.qbuf ∧ s.qhead = t.qhead ∧ s.qtail = t.qtail ∧ s.qcnt = t.qcnt := by
  simp only [State.Of.unsent, Prod.mk.injEq]

/-- A symbol period of a block that is not RUNNING keeps what is still to be sent (R111, R112). -/
theorem symbolStep_unsent (s : State.Of c) (hk : s.key ≠ .running) : (symbolStep s).unsent = s.unsent := by
  rw [symbolStep_eq]
  cases hkey : s.key with
  | stopped => rw [nextSym_stopped hkey]; rfl
  | starting => rw [nextSym_starting hkey]; rfl
  | running => exact absurd hkey hk

/-- One symbol period of a block that is STOPPED leaves it so (R111). -/
theorem symbolStep_key_stopped (s : State.Of c) (hk : s.key = .stopped) : (symbolStep s).key = .stopped := by
  rw [symbolStep_eq, nextSym_stopped hk]
  exact hk

/-- A TICK of a block that is not RUNNING keeps what is still to be sent (R119). -/
theorem after_tick_unsent (s : State.Of c) (hk : s.key ≠ .running) : (after .tick s).unsent = s.unsent := by
  rcases ramp_below_or_boundary s with h | h
  · rw [after_tick_below s h]; rfl
  · rw [after_tick_boundary s h]
    exact symbolStep_unsent _ hk

/-- While STOPPED any number of TICKs, and while STARTING the TICKs up to and with the boundary that emits CON, keep what is
still to be sent (R119). -/
theorem ticks_unsent (n : Nat) (s : State.Of c) (hk : s.key ≠ .running)
    (h : s.key = .stopped ∨ s.ramp.val + n ≤ c.symlen) : (ticks n s).unsent = s.unsent := by
  induction n generalizing s with
  | zero => rfl
  | succ n ih =>
    rw [ticks, ← after_tick_unsent s hk]
    rcases ramp_below_or_boundary s with hr | hr
    · have hkey : (after .tick s).key = s.key := after_key s nofun nofun fun _ => hr.ne
      have hramp : (after .tick s).ramp.val = s.ramp.val + 1 := by rw [after_tick_ramp, Nat.mod_eq_of_lt hr]
      refine ih _ (hkey ▸ hk) ?_
      rw [hkey, hramp]
      exact h.imp_right fun hn => by omega
    · rcases h with hstop | hn
      · have hkey : (after .tick s).key = .stopped := by
          rw [after_tick_boundary s hr]
          exact symbolStep_key_stopped _ hstop
        exact ih _ (by rw [hkey]; decide) (Or.inl hkey)
      · obtain rfl : n = 0 := by omega
        rfl

end Sys2Proof.Machine

namespace Sys2Proof.SymbolEncoder

open Sys2Proof.Machine

/-- Settles O52: the leaves of NEXTSYM one by one, PATH_LOAD with each of the two cases of POP. -/
theorem nextSymInEveryConfiguration : Obligations.NextSymInEveryConfiguration := by
  refine fun c s => ⟨nextSym_stopped, nextSym_starting, nextSym_separator, ?_, ?_, ?_, nextSym_shift_more⟩
  · intro hk hs he hq
    rw [nextSym_load hk hs he, pop_empty hq]
    rfl
  · intro hk hs he hq
    rw [nextSym_load hk hs he, pop_nonempty hq]
    rfl
  · intro hk hs hz
    have hm := msb_of_shl1_eq_zero hs hz
    refine ⟨hm, ?_⟩
    rw [nextSym_shift_last hk hs hz, hm]
    rfl

/-- Settles O18: the leaves of `nextSymInEveryConfiguration` at this hardware; which of the two leaves of PATH_SHIFT a row
takes is decided by `shl1_eq_zero_iff`. -/
theorem nextSymFollowsItsTable : Obligations.NextSymFollowsItsTable := by
  intro s
  obtain ⟨hstopped, hstarting, hseparator, hidle, hload, hlast, hmore⟩ := nextSymInEveryConfiguration Config.hardware s
  refine ⟨hstopped, hstarting, hseparator, hidle, hload, ?_, ?_, ?_⟩
  · intro hk hs
    exact (hlast hk (by rw [hs]; decide) (by rw [hs]; decide)).2
  · intro hk hm hs
    have hz : shl1 s.shift ≠ 0#20 := by
      rw [Ne, shl1_eq_zero_iff, not_or]
      exact ⟨fun h => by rw [h] at hm; exact absurd hm (by decide), hs⟩
    have hnext := hmore hk hz
    rw [hm] at hnext
    exact ⟨hnext, hz⟩
  · intro hk hm hs
    have hz : shl1 s.shift ≠ 0#20 := fun h => by
      rw [msb_of_shl1_eq_zero hs h] at hm
      exact absurd hm (by decide)
    have hnext := hmore hk hz
    rw [hm] at hnext
    exact ⟨hnext, hz⟩

/-- Settles O20: `nextSyms_pending` at SRW 20, where a code is pending and so ENDM is free. -/
theorem pendingCodeIsSentBitByBit : Obligations.PendingCodeIsSentBitByBit :=
  fun s hk hs => nextSyms_pending s hk fun h => absurd h hs

/-- Settles O53: `nextSyms_character` and `nextSyms_character_empty`, as the code of the character popped is. -/
theorem characterCostsItsSymbolsInEveryConfiguration : Obligations.CharacterCostsItsSymbolsInEveryConfiguration := by
  intro c s hk hs he
  by_cases hcode : c.code (pop s).1 = 0#c.srw
  · rw [if_pos hcode, if_pos hcode]
    exact nextSyms_character_empty s hk hs he hcode
  · rw [if_neg hcode, if_neg hcode]
    exact nextSyms_character s hk hs he hcode

/-- Settles O21: `characterCostsItsSymbolsInEveryConfiguration` at this hardware. -/
theorem characterCostsItsSymbols : Obligations.CharacterCostsItsSymbols :=
  characterCostsItsSymbolsInEveryConfiguration Config.hardware

/-- Settles O29: `ticks_unsent` at SYMLEN 256. -/
theorem keyingKeepsThePendingCharacter : Obligations.KeyingKeepsThePendingCharacter :=
  fun n s hk h => (unsent_eq_iff (ticks n s) s).mp (ticks_unsent n s hk h)

/-- Settles O19: the two cases of POP at QCAP 26. -/
theorem popReturnsHeadOrIdle : Obligations.PopReturnsHeadOrIdle :=
  fun _ => ⟨pop_empty, pop_nonempty⟩

end Sys2Proof.SymbolEncoder
end

section
/-! PROOF. The phase/shape machine (spec/41_phase_shape_machine.md R130 to R141): how the entries of TRANS are made, what a
symbol of a RUNNING block does to the phase, and the samples at which two selected segments meet, in every configuration. -/

namespace Sys2Proof.Machine

/-! ### How the table is made -/

/-- The segment that runs from one level to another, Z where an argument is no level (R133). -/
def segBetween (a b : Int) : Seg :=
  match a, b with
  | 1, 1 => .p
  | -1, -1 => .m
  | 0, 1 => .zp
  | 1, 0 => .pz
  | 0, -1 => .zm
  | -1, 0 => .mz
  | 1, -1 => .pm
  | -1, 1 => .mp
  | _, _ => .z

/-- A segment is recovered from its two levels (R94). -/
theorem segBetween_levels (g : Seg) : segBetween (segStart g) (segEnd g) = g := by
  cases g <;> rfl

/-- No two segments have the same two levels (R133). -/
theorem seg_eq_iff_levels (g g' : Seg) : g = g' ↔ segStart g = segStart g' ∧ segEnd g = segEnd g' := by
  refine ⟨fun h => h ▸ ⟨rfl, rfl⟩, fun ⟨hstart, hend⟩ => ?_⟩
  rw [← segBetween_levels g, hstart, hend, segBetween_levels]

/-- The segment that the table selects starts at the rest level of the present phase, on each channel (R133). -/
theorem segStart_transTable (y : Symbol) (p : Phase) :
    segStart (transTable y p).1 = restI p ∧ segStart (transTable y p).2.1 = restQ p := by
  cases y <;> cases p <;> exact ⟨rfl, rfl⟩

/-- From a reachable phase with the carrier on, a data symbol leads to a reachable phase with the carrier on, to another one
exactly when it is REV180 (R135, R136). -/
theorem transTable_data_differential {y : Symbol} {p : Phase} (hy : y = .rev180 ∨ y = .nochg) (hp : p = .ph0 ∨ p = .ph180) :
    (y = .rev180 ↔ (transTable y p).2.2 ≠ p) ∧ ((transTable y p).2.2 = .ph0 ∨ (transTable y p).2.2 = .ph180) := by
  rcases hy with rfl | rfl <;> rcases hp with rfl | rfl <;> decide

/-- The meaning of a symbol in this hardware: the entry of the table at the present phase is written (R130, R131). -/
theorem exec_symbolInstr (y : Symbol) (s : State) :
    exec (symbolInstr y) s = .next (s.setPsm (transTable y s.phase)) := by
  rw [exec_eq_execOf, execOf_symbolInstr, resolve_eq]

variable {c : Configuration}

/-! ### What a boundary selects -/

/-- While RUNNING every symbol is a data symbol (R115 to R117). -/
theorem nextSym_data (s : State.Of c) (hk : s.key = .running) : (nextSym s).1 = .rev180 ∨ (nextSym s).1 = .nochg := by
  rcases nextSym_cases s with ⟨h, -⟩ | ⟨h, -⟩ | ⟨-, -, -, hn⟩ | ⟨-, -, -, hn⟩ | ⟨-, -, -, hn⟩ | ⟨-, -, -, hn⟩
  · exact absurd (h.symm.trans hk) (by decide)
  · exact absurd (h.symm.trans hk) (by decide)
  · exact Or.inl (congrArg Prod.fst hn)
  · exact Or.inl (congrArg Prod.fst hn)
  · rw [hn]; exact (ite_eq_or_eq _ _ _).symm
  · rw [hn]; exact (ite_eq_or_eq _ _ _).symm

/-- The phase after one symbol period (R130). -/
theorem symbolStep_phase (s : State.Of c) : (symbolStep s).phase = (transTable (nextSym s).1 s.phase).2.2 := by
  rw [symbolStep_eq]
  rfl

/-- A TICK at a symbol boundary selects the segments of an entry for the present phase, and RAMP goes to 0 (R130, R150). -/
theorem after_tick_boundary_selects (s : State.Of c) (h : s.ramp.val + 1 = c.symlen) :
    (after .tick s).ramp.val = 0 ∧
    ∃ y, (after .tick s).segi = (transTable y s.phase).1 ∧ (after .tick s).segq = (transTable y s.phase).2.1 := by
  rw [after_tick_boundary s h, symbolStep_eq]
  exact ⟨by simp, _, rfl, rfl⟩

/-! ### Where two segments meet -/

/-- The first sample of a segment is its start level (R94). -/
theorem sample_first (g : Seg) (k : Fin c.symlen) (hk : k.val = 0) :
    c.sample g k = BitVec.ofInt c.sampw (c.amp * segStart g) := by
  rw [Configuration.sample, hk, c.legal.shape_first]

/-- The last sample of a segment is its end level (R94). -/
theorem sample_last (g : Seg) (k : Fin c.symlen) (hk : k.val + 1 = c.symlen) :
    c.sample g k = BitVec.ofInt c.sampw (c.amp * segEnd g) := by
  rw [Configuration.sample, Nat.eq_sub_of_add_eq hk, c.legal.shape_last]

/-- The first sample of a segment of this hardware. -/
theorem shape_first (g : Seg) : shape g ⟨0, by decide⟩ = levelSample (segStart g) :=
  sample_first (c := Config.hardware) g _ rfl

/-- The last sample of a segment of this hardware. -/
theorem shape_last (g : Seg) : shape g ⟨255, by decide⟩ = levelSample (segEnd g) :=
  sample_last (c := Config.hardware) g _ rfl

/-- A TICK puts out the samples that its segments have at RAMP (R150 step 1). -/
theorem after_tick_outs (s : State.Of c) :
    (after .tick s).iout = c.sample s.segi s.ramp ∧ (after .tick s).qout = c.sample s.segq s.ramp := by
  rcases ramp_below_or_boundary s with h | h
  · rw [after_tick_below s h, emitPair_eq]
    exact ⟨rfl, rfl⟩
  · rw [after_tick_boundary s h, symbolStep_eq, emitPair_eq]
    simp

end Sys2Proof.Machine

namespace Sys2Proof.PhaseShape

open Sys2Proof.Machine

/-- Settles O43: a RUNNING block sends a data symbol, and `transTable_data_differential` says where it leads. -/
theorem dataSymbolsAreDifferential : Obligations.DataSymbolsAreDifferential := by
  intro s hk hp
  have hdata := nextSym_data s hk
  rw [symbolStep_phase]
  exact ⟨hdata, transTable_data_differential hdata hp⟩

/-- Settles O56: the present segments end at the rest levels of the phase (R45), where the segments that the boundary selects
start. -/
theorem streamIsContinuousInEveryConfiguration : Obligations.StreamIsContinuousInEveryConfiguration := by
  intro c s hinv hb
  obtain ⟨hramp, y, hsegi, hsegq⟩ := after_tick_boundary_selects s hb
  obtain ⟨hstartI, hstartQ⟩ := segStart_transTable y s.phase
  obtain ⟨hi, hq⟩ := after_tick_outs s
  obtain ⟨hi', hq'⟩ := after_tick_outs (after .tick s)
  rw [hi, hq, hi', hq', hsegi, hsegq]
  exact ⟨(sample_last_eq_first _ _ _ _ hb hramp (hinv.contI.trans hstartI.symm)).symm,
    (sample_last_eq_first _ _ _ _ hb hramp (hinv.contQ.trans hstartQ.symm)).symm⟩

/-- Settles O39: each symbol writes its entry at the present phase, and the five entries of its row are the table's. -/
theorem symbolsFollowTheTransitionTable : Obligations.SymbolsFollowTheTransitionTable := by
  intro s
  refine ⟨(exec_symbolInstr .nochg s).trans ?_, (exec_symbolInstr .rev180 s).trans ?_,
    (exec_symbolInstr .coff s).trans ?_, (exec_symbolInstr .con s).trans ?_⟩
  all_goals cases s.phase <;> rfl

/-- Settles O40: the next phases are read off the table; the segments join the rest levels, and by `seg_eq_iff_levels` no
others do. -/
theorem transitionEntriesJoinRestLevels : Obligations.TransitionEntriesJoinRestLevels := by
  refine ⟨fun p => ?_, rfl, rfl, rfl, rfl, rfl, rfl, fun y p g => ?_⟩
  · cases p <;> decide
  · obtain ⟨hstartI, hstartQ⟩ := segStart_transTable y p
    obtain ⟨hendI, hendQ⟩ := segEnd_transTable y p
    rw [seg_eq_iff_levels, seg_eq_iff_levels g, hstartI, hstartQ, hendI, hendQ]
    exact ⟨Iff.rfl, Iff.rfl⟩

/-- Settles O41: a segment's last and first samples are its levels, and those are the rest levels of the phase between. -/
theorem selectedSegmentsJoin : Obligations.SelectedSegmentsJoin := by
  intro y y' p
  obtain ⟨hendI, hendQ⟩ := segEnd_transTable y p
  obtain ⟨hstartI, hstartQ⟩ := segStart_transTable y' (transTable y p).2.2
  rw [shape_last, shape_last, shape_first, shape_first, hendI, hendQ, hstartI, hstartQ]
  exact ⟨rfl, rfl, rfl, rfl⟩

end Sys2Proof.PhaseShape
end

section
/-! PROOF. The sample synthesizer (spec/42_sample_synthesizer.md R150 to R157): one TICK, the refinement of the block at the
symbol rate by the block at the sample rate, the silence of an idle block and the range of a sample, in every
configuration. -/

namespace Sys2Proof.Machine

variable {c : Configuration}

/-! ### The sampler and the symbol rate -/

/-- The state with the items of another one that a TICK writes at every offset: the samples, RAMP and the response. What is
left is the block as the symbol rate sees it. -/
def State.Of.withSamplerOf (s t : State.Of c) : State.Of c :=
  { s with ramp := t.ramp, iout := t.iout, qout := t.qout, response := t.response }

/-- States that agree but for the sampler agree on every item that the symbol rate sees. -/
theorem items_of_eq_withSamplerOf {s t d : State.Of c} (h : s = t.withSamplerOf d) :
    s.segi = t.segi ∧ s.segq = t.segq ∧ s.phase = t.phase ∧ s.shift = t.shift ∧ s.endm = t.endm ∧ s.key = t.key ∧
    queueContent s = queueContent t := by
  subst h
  exact ⟨rfl, rfl, rfl, rfl, rfl, rfl, rfl⟩

section Commute

variable (s d : State.Of c)

/-- POP reads nothing of the sampler (R114). -/
theorem pop_withSamplerOf : pop (s.withSamplerOf d) = ((pop s).1, (pop s).2.withSamplerOf d) := by
  rcases pop_cases s with ⟨h, -⟩ | ⟨h, -⟩
  · rw [pop_empty h, pop_empty (s := s.withSamplerOf d) h]
  · rw [pop_nonempty h, pop_nonempty (s := s.withSamplerOf d) h]; rfl

/-- NEXTSYM reads nothing of the sampler (R110 to R117). -/
theorem nextSym_withSamplerOf :
    nextSym (s.withSamplerOf d) = ((nextSym s).1, (nextSym s).2.withSamplerOf d) := by
  rcases nextSym_cases s with
    ⟨hk, -⟩ | ⟨hk, -⟩ | ⟨hk, hs, he, -⟩ | ⟨hk, hs, he, -⟩ | ⟨hk, hs, hz, -⟩ | ⟨hk, -, hz, -⟩
  · rw [nextSym_stopped hk, nextSym_stopped (s := s.withSamplerOf d) hk]
  · rw [nextSym_starting hk, nextSym_starting (s := s.withSamplerOf d) hk]; rfl
  · rw [nextSym_separator hk hs he, nextSym_separator (s := s.withSamplerOf d) hk hs he]; rfl
  · rw [nextSym_load hk hs he, nextSym_load (s := s.withSamplerOf d) hk hs he, pop_withSamplerOf]; rfl
  · rw [nextSym_shift_last hk hs hz, nextSym_shift_last (s := s.withSamplerOf d) hk hs hz]; rfl
  · rw [nextSym_shift_more hk hz, nextSym_shift_more (s := s.withSamplerOf d) hk hz]; rfl

/-- One symbol period reads nothing of the sampler and leaves it as it is (R130). -/
theorem symbolStep_withSamplerOf : symbolStep (s.withSamplerOf d) = (symbolStep s).withSamplerOf d := by
  simp only [symbolStep_eq, nextSym_withSamplerOf]
  rfl

/-- Nor do any number of symbol periods. -/
theorem symbolSteps_withSamplerOf (n : Nat) :
    symbolSteps n (s.withSamplerOf d) = (symbolSteps n s).withSamplerOf d := by
  induction n generalizing s with
  | zero => rfl
  | succ n ih => rw [symbolSteps, symbolStep_withSamplerOf, ih, ← symbolSteps]

end Commute

/-- Symbol periods one after the other. -/
theorem symbolSteps_add (m n : Nat) (s : State.Of c) : symbolSteps (m + n) s = symbolSteps n (symbolSteps m s) := by
  induction m generalizing s with
  | zero => rw [Nat.zero_add, symbolSteps]
  | succ m ih => rw [Nat.succ_add, symbolSteps, ih, ← symbolSteps]

/-- A TICK is one symbol period at a boundary and none below it, but for the sampler (R150). -/
theorem after_tick_eq_symbolSteps (s : State.Of c) :
    after .tick s = (symbolSteps (if atBoundary s then 1 else 0) s).withSamplerOf (after .tick s) := by
  rcases ramp_below_or_boundary s with h | h
  · rw [if_neg fun hb => h.ne ((atBoundary_iff_of s).mp hb), after_tick_below s h]
    rfl
  · rw [if_pos ((atBoundary_iff_of s).mpr h), after_tick_boundary s h]
    have hsampler : (emitPair s).setRamp ⟨0, c.symlen_pos⟩ =
        s.withSamplerOf ((emitPair s).setRamp ⟨0, c.symlen_pos⟩) := rfl
    rw [hsampler, symbolStep_withSamplerOf]
    rfl

/-- Symbol periods after a TICK: one more where the TICK is at a boundary. -/
theorem symbolSteps_after_tick (n : Nat) (s : State.Of c) :
    symbolSteps n (after .tick s) =
      (symbolSteps ((if atBoundary s then 1 else 0) + n) s).withSamplerOf (after .tick s) := by
  rw [symbolSteps_add, ← symbolSteps_withSamplerOf, ← after_tick_eq_symbolSteps]

/-- The block at the sample rate refines the block at the symbol rate: but for the sampler, n TICKs are as many symbol
periods as they cross boundaries (R153, R154). -/
theorem ticks_eq_symbolSteps (n : Nat) (s : State.Of c) :
    ticks n s = (symbolSteps (boundaries n s) s).withSamplerOf (ticks n s) := by
  induction n generalizing s with
  | zero => rfl
  | succ n ih =>
    calc ticks (n + 1) s
        = (symbolSteps (boundaries n (after .tick s)) (after .tick s)).withSamplerOf (ticks n (after .tick s)) := ih _
      _ = (symbolSteps (boundaries (n + 1) s) s).withSamplerOf (ticks n (after .tick s)) := by
        rw [symbolSteps_after_tick, boundaries]; rfl

/-- Within a symbol period TICKs change the sampler only (R152). -/
theorem ticks_below_boundary (n : Nat) (s : State.Of c) (h : s.ramp.val + n < c.symlen) :
    ticks n s = s.withSamplerOf (ticks n s) := by
  have hrefine := ticks_eq_symbolSteps n s
  rw [boundaries_eq, Nat.div_eq_of_lt h] at hrefine
  exact hrefine

/-! ### The stream from a boundary -/

section FromBoundary

variable (s : State.Of c) (j : Nat) {k : Nat} (hk : k < c.symlen) (hr : s.ramp.val = 0)
include hk hr

/-- From a boundary, j periods and k further TICKs are j symbol periods, but for the sampler (R154). -/
theorem ticks_from_boundary :
    ticks (j * c.symlen + k) s = (symbolSteps j s).withSamplerOf (ticks (j * c.symlen + k) s) := by
  have hcount : boundaries (j * c.symlen + k) s = j := by
    rw [boundaries_eq, hr, Nat.zero_add, Nat.mul_comm, Nat.mul_add_div c.symlen_pos, Nat.div_eq_of_lt hk, Nat.add_zero]
  have hrefine := ticks_eq_symbolSteps (j * c.symlen + k) s
  rw [hcount] at hrefine
  exact hrefine

/-- From a boundary, j periods and k further TICKs leave RAMP at k (R153). -/
theorem ticks_ramp_from_boundary : (ticks (j * c.symlen + k) s).ramp = ⟨k, hk⟩ :=
  Fin.ext (by rw [ticks_ramp, hr, Nat.zero_add, Nat.mul_add_mod_of_lt hk])

/-- The TICK after them returns offset k of the segments that the j-th symbol selected (R154). -/
theorem outs_from_boundary :
    (after .tick (ticks (j * c.symlen + k) s)).iout = c.sample (symbolSteps j s).segi ⟨k, hk⟩ ∧
    (after .tick (ticks (j * c.symlen + k) s)).qout = c.sample (symbolSteps j s).segq ⟨k, hk⟩ := by
  obtain ⟨hsegi, hsegq, -⟩ := items_of_eq_withSamplerOf (ticks_from_boundary s j hk hr)
  rw [← hsegi, ← hsegq, ← ticks_ramp_from_boundary s j hk hr]
  exact after_tick_outs _

end FromBoundary

/-! ### The idle block -/

/-- The last of n + 1 TICKs. -/
theorem ticks_succ_eq_after (n : Nat) (s : State.Of c) : ticks (n + 1) s = after .tick (ticks n s) := by
  induction n generalizing s with
  | zero => rfl
  | succ n ih => rw [ticks, ih, ← ticks]

/-- The transmission is stopped, the carrier is off and the held segments are Z, as after reset (R140, R155). -/
structure Idle (s : State.Of c) : Prop where
  key : s.key = .stopped
  phase : s.phase = .phoff
  segi : s.segi = .z
  segq : s.segq = .z

/-- Every sample of Z is 0 (R95). -/
theorem sample_z (k : Fin c.symlen) : c.sample .z k = 0#c.sampw := by
  rw [Configuration.sample, c.legal.shape_steady .z rfl k.val k.isLt, segStart, Int.mul_zero]
  rfl

/-- The entry of COFF at PHOFF is what an idle block holds, so that a symbol period changes nothing (R111, R131). -/
theorem Idle.symbolStep_eq_self {s : State.Of c} (h : Idle s) : symbolStep s = s := by
  obtain ⟨hkey, hphase, hsegi, hsegq⟩ := h
  have hentry : transTable .coff s.phase = (s.segi, s.segq, s.phase) := by rw [hphase, hsegi, hsegq]; rfl
  rw [symbolStep_eq, nextSym_stopped hkey, hentry]
  rfl

/-- Nor do any number of symbol periods. -/
theorem Idle.symbolSteps_eq_self {s : State.Of c} (h : Idle s) (n : Nat) : symbolSteps n s = s := by
  induction n with
  | zero => rfl
  | succ n ih => rw [symbolSteps, h.symbolStep_eq_self, ih]

/-- Any number of TICKs leave an idle block idle (R155). -/
theorem Idle.after_ticks {s : State.Of c} (h : Idle s) (n : Nat) : Idle (ticks n s) := by
  rw [ticks_eq_symbolSteps, h.symbolSteps_eq_self]
  exact { h with }

/-- Every TICK of an idle block returns (0, 0) (R155). -/
theorem Idle.after_tick_outs_zero {s : State.Of c} (h : Idle s) :
    (after .tick s).iout = 0#c.sampw ∧ (after .tick s).qout = 0#c.sampw := by
  obtain ⟨hi, hq⟩ := after_tick_outs s
  rw [h.segi, sample_z] at hi
  rw [h.segq, sample_z] at hq
  exact ⟨hi, hq⟩

/-! ### The range of a sample -/

/-- No sample goes beyond the steady level (R95). -/
theorem sample_range (g : Seg) (k : Fin c.symlen) :
    -(c.amp : Int) ≤ (c.sample g k).toInt ∧ (c.sample g k).toInt ≤ c.amp := by
  rw [sample_toInt]
  exact c.legal.shape_range g k.val k.isLt

end Sys2Proof.Machine

namespace Sys2Proof.SampleSynthesizer

open Sys2Proof.Machine

/-- Settles O50: the two cases of TICK, with the pair read through the physical ROM. -/
theorem tickInEveryConfiguration : Obligations.TickInEveryConfiguration := by
  refine fun c s => ⟨fun h => ?_, fun h => ?_⟩
  · rw [execOf_eq_after, after_tick_below s h, emitPair_eq]
    rfl
  · rw [execOf_eq_after, after_tick_boundary s h, emitPair_eq]
    rfl

/-- Settles O12: `tickInEveryConfiguration` at this hardware, where a sample fills its half of the response. -/
theorem tickEmitsAdvancesAndCrossesTheBoundary : Obligations.TickEmitsAdvancesAndCrossesTheBoundary := by
  refine ⟨fun s h => ?_, fun s h => ?_⟩
  · have htick := (tickInEveryConfiguration Config.hardware s).1 h
    rw [BitVec.signExtend_eq, BitVec.signExtend_eq] at htick
    exact (exec_eq_execOf .tick s).trans htick
  · have htick := (tickInEveryConfiguration Config.hardware s).2 h
    rw [BitVec.signExtend_eq, BitVec.signExtend_eq] at htick
    exact (exec_eq_execOf .tick s).trans htick

/-- Settles O13: within a symbol period TICKs change the sampler only, and `ticks_ramp` counts them. -/
theorem offsetsIncreaseWithinASymbolPeriod : Obligations.OffsetsIncreaseWithinASymbolPeriod := by
  intro n s h
  obtain ⟨hsegi, hsegq, hphase, -⟩ := items_of_eq_withSamplerOf (ticks_below_boundary n s h)
  refine ⟨hsegi, hsegq, hphase, ?_⟩
  rw [ticks_ramp, Nat.mod_eq_of_lt h]

/-- Settles O55: `outs_from_boundary`. -/
theorem sampleStreamInEveryConfiguration : Obligations.SampleStreamInEveryConfiguration :=
  fun _ s j _ hk hr => outs_from_boundary s j hk hr

/-- Settles O15: the samples as in `sampleStreamInEveryConfiguration`, and everything but the sampler by
`ticks_from_boundary`. -/
theorem sampleStreamRefinesSymbolStream : Obligations.SampleStreamRefinesSymbolStream := by
  intro s j k hk hr
  obtain ⟨hi, hq⟩ := sampleStreamInEveryConfiguration Config.hardware s j k hk hr
  obtain ⟨-, -, hphase, hshift, hendm, hkey, hqueue⟩ := items_of_eq_withSamplerOf (ticks_from_boundary s j hk hr)
  exact ⟨hi, hq, hshift, hendm, hkey, hphase, hqueue⟩

/-- Settles O16: this hardware is one configuration. -/
theorem streamIsContinuousAtTheBoundary : Obligations.StreamIsContinuousAtTheBoundary :=
  PhaseShape.streamIsContinuousInEveryConfiguration Config.hardware

/-- Settles O57: a TICK puts out two samples of SHAPE, and `sample_range` bounds each. -/
theorem samplesStayInRangeInEveryConfiguration : Obligations.SamplesStayInRangeInEveryConfiguration := by
  intro c s
  obtain ⟨hi, hq⟩ := after_tick_outs s
  obtain ⟨hilow, hihigh⟩ := sample_range s.segi s.ramp
  obtain ⟨hqlow, hqhigh⟩ := sample_range s.segq s.ramp
  rw [← hi] at hilow hihigh
  rw [← hq] at hqlow hqhigh
  exact ⟨after .tick s, execOf_eq_after .tick s, hilow, hihigh, hqlow, hqhigh⟩

/-- Settles O17: `samplesStayInRangeInEveryConfiguration` at AMP 16384. -/
theorem samplesStayInRange : Obligations.SamplesStayInRange := by
  intro s
  rw [exec_eq_execOf]
  exact samplesStayInRangeInEveryConfiguration Config.hardware s

/-- Settles O31: an idle block stays idle, and the last of n TICKs found it so. -/
theorem quietStaysQuiet : Obligations.QuietStaysQuiet := by
  intro n s hkey hphase hsegi hsegq
  have hidle : Idle s := ⟨hkey, hphase, hsegi, hsegq⟩
  obtain ⟨hkey', hphase', hsegi', hsegq'⟩ := hidle.after_ticks n
  refine ⟨fun hn => ?_, hkey', hphase', hsegi', hsegq'⟩
  obtain ⟨m, rfl⟩ := Nat.exists_eq_add_one.mpr hn
  rw [ticks_succ_eq_after]
  exact (hidle.after_ticks m).after_tick_outs_zero

end Sys2Proof.SampleSynthesizer
end

section
/-! PROOF. The character source and the control operations (spec/43_character_source_and_control.md R170 to R178): the whole
effect of each, the content of the queue as a FIFO under each instruction, and the keying table, in every configuration. -/

namespace Sys2Proof.Machine

variable {c : Configuration}

/-! ### The operations -/

/-- The step when a reserved word is presented (R176, R195). -/
theorem stepBy_reserved (run : Instr → State.Of c → Host.Outcome (State.Of c) Fault Refusal) (s : State.Of c)
    {w : OpWord} {rest : List Input} (h : s.inputs = .word w :: rest) (ha : assigned w = false) :
    stepBy run s = .next (reservedOp w (s.setInputs rest)) := by
  rw [stepBy_word run s w rest h, (not_assigned_iff_decode_reserved w).mp ha]

/-- Appending a byte, with the new count in numbers (R160 row 6, R170). -/
theorem enqueue_eq (b : Byte) (s : State.Of c) (h : s.qcnt.val < c.qcap) :
    s.enqueue b = { s with qbuf := Memory.write s.qbuf s.qtail.val b, qtail := nextSlot s.qtail,
                           qcnt := ⟨s.qcnt.val + 1, Nat.succ_lt_succ h⟩ } := by
  have hcount : countUp s.qcnt = ⟨s.qcnt.val + 1, Nat.succ_lt_succ h⟩ := Fin.ext (countUp_val s.qcnt h)
  rw [State.Of.enqueue, hcount]

/-- The saturating increment as a word (R160 row 11). -/
theorem satInc_eq_ofNat (n : BitVec 16) : satInc n = BitVec.ofNat 16 (min (n.toNat + 1) 0xFFFF) := by
  refine BitVec.eq_of_toNat_eq ?_
  rw [satInc_toNat, BitVec.toNat_ofNat]
  omega

/-! ### The content of the queue -/

/-- What makes the storage a queue: the indices agree (R41) and the storage is in its canonical form. -/
structure QueueOk (s : State.Of c) : Prop where
  index : s.qtail.val = (s.qhead.val + s.qcnt.val) % c.qcap
  memory : Memory.wf s.qbuf = true

/-- The queue holds QCNT bytes (R23). -/
theorem queueContent_length (s : State.Of c) : (queueContent s).length = s.qcnt.val := by
  rw [queueContent, List.length_map, List.length_range]

/-- While there is a free slot, the tail is none of the slots that hold a byte (R41). -/
theorem index_ne_tail {q head cnt tail j : Nat} (hj : j < cnt) (hfree : cnt < q) (h : tail = (head + cnt) % q) :
    (head + j) % q ≠ tail := by
  rw [h]
  intro heq
  have hmod : j ≡ cnt [MOD q] := Nat.ModEq.add_left_cancel' head heq
  exact hj.ne (hmod.eq_of_lt_of_lt (hj.trans hfree) hfree)

/-- An accepted byte becomes the youngest (R170). -/
theorem queueContent_enqueue {s : State.Of c} (hs : QueueOk s) (b : Byte) (hfree : s.qcnt.val < c.qcap) :
    queueContent (s.enqueue b) = queueContent s ++ [b] := by
  have hkept : ∀ j ∈ List.range s.qcnt.val,
      Memory.read (Memory.write s.qbuf s.qtail.val b) ((s.qhead.val + j) % c.qcap) =
        Memory.read s.qbuf ((s.qhead.val + j) % c.qcap) :=
    fun j hj => Memory.read_write_other _ _ _ _ (index_ne_tail (List.mem_range.mp hj) hfree hs.index)
  simp only [queueContent, State.Of.enqueue_qbuf, State.Of.enqueue_qhead, State.Of.enqueue_qcnt,
    countUp_val s.qcnt hfree, List.range_succ, List.map_append, List.map_singleton]
  rw [List.map_congr_left hkept, ← hs.index, Memory.read_write_same _ _ _ hs.memory]

/-- The byte that POP takes is the oldest (R114). -/
theorem queueContent_dequeue (s : State.Of c) (hpos : 0 < s.qcnt.val) :
    queueContent s = qRead s :: queueContent s.dequeue := by
  have hcnt : s.qcnt.val = s.qcnt.val - 1 + 1 := by omega
  have hhead : (s.qhead.val + 0) % c.qcap = s.qhead.val := Nat.mod_eq_of_lt s.qhead.isLt
  have hslot : ∀ j, (s.qhead.val + (j + 1)) % c.qcap = ((s.qhead.val + 1) % c.qcap + j) % c.qcap := fun j => by
    rw [Nat.mod_add_mod, Nat.add_assoc, Nat.add_comm 1 j]
  rw [queueContent, hcnt, List.range_succ_eq_map, List.map_cons, List.map_map, hhead]
  refine congrArg (qRead s :: ·) (List.map_congr_left fun j _ => ?_)
  exact congrArg (Memory.read s.qbuf) (hslot j)

/-- POP takes the oldest byte, or none where the queue is empty (R114). -/
theorem queueContent_pop (s : State.Of c) :
    queueContent s = (if queueEmpty s then [] else [qRead s]) ++ queueContent (pop s).2 := by
  rcases pop_cases s with ⟨hempty, hpop⟩ | ⟨hpos, hpop⟩
  · have hnone : queueEmpty s = true := decide_eq_true hempty
    rw [if_pos hnone, hpop, List.nil_append]
  · have hsome : ¬queueEmpty s = true := by simpa [queueEmpty] using hpos.ne'
    rw [if_neg hsome, hpop]
    exact queueContent_dequeue s hpos

/-! ### The bytes that a TICK takes -/

/-- What a TICK that makes a load is (R110, R113, R222). -/
theorem loadsNow_iff (s : State.Of c) : loadsNow s = true ↔
    s.ramp.val + 1 = c.symlen ∧ s.key = .running ∧ s.shift = 0#c.srw ∧ s.endm = false := by
  simp only [loadsNow, Bool.and_eq_true, atBoundary_iff_of, beq_iff_eq, Bool.not_eq_true', and_assoc]

/-- A TICK that makes a load takes what POP takes (R114, R116). -/
theorem takenBy_tick_of_load {s : State.Of c} (h : loadsNow s = true) :
    takenBy .tick s = if queueEmpty s then [] else [qRead s] := by
  cases hempty : queueEmpty s <;> simp [takenBy, h, hempty]

/-- Any other TICK takes nothing (R113). -/
theorem takenBy_tick_of_not_load {s : State.Of c} (h : ¬loadsNow s = true) : takenBy .tick s = [] := by
  simp [takenBy, h]

/-- Only PATH_LOAD takes a byte out of the queue (R110 to R117). -/
theorem nextSym_queueContent_of_not_load {s : State.Of c}
    (h : ¬(s.key = .running ∧ s.shift = 0#c.srw ∧ s.endm = false)) : queueContent (nextSym s).2 = queueContent s := by
  rcases nextSym_cases s with
    ⟨-, hn⟩ | ⟨-, hn⟩ | ⟨-, -, -, hn⟩ | ⟨hk, hs, he, -⟩ | ⟨-, -, -, hn⟩ | ⟨-, -, -, hn⟩
  case inr.inr.inr.inl => exact absurd ⟨hk, hs, he⟩ h
  all_goals exact congrArg (fun r => queueContent r.2) hn

/-- At a boundary what was queued is what the TICK takes, then what the symbol period leaves (R114). -/
theorem queueContent_symbolStep (s : State.Of c) (hb : s.ramp.val + 1 = c.symlen) :
    queueContent s = takenBy .tick s ++ queueContent (symbolStep s) := by
  have hpsm : queueContent (symbolStep s) = queueContent (nextSym s).2 := by rw [symbolStep_eq]; rfl
  rw [hpsm]
  by_cases hload : loadsNow s = true
  · obtain ⟨-, hk, hs, he⟩ := (loadsNow_iff s).mp hload
    rw [takenBy_tick_of_load hload, nextSym_load hk hs he]
    exact queueContent_pop s
  · have hpath : ¬(s.key = .running ∧ s.shift = 0#c.srw ∧ s.endm = false) := fun h =>
      hload ((loadsNow_iff s).mpr ⟨hb, h⟩)
    rw [takenBy_tick_of_not_load hload, nextSym_queueContent_of_not_load hpath, List.nil_append]

/-- What was queued is what a TICK takes, then what it leaves, anywhere in a symbol period (R114, R150). -/
theorem queueContent_after_tick (s : State.Of c) :
    queueContent s = takenBy .tick s ++ queueContent (after .tick s) := by
  obtain ⟨-, -, -, -, -, -, hqueue⟩ := items_of_eq_withSamplerOf (after_tick_eq_symbolSteps s)
  rw [hqueue]
  rcases ramp_below_or_boundary s with hr | hr
  · have hload : ¬loadsNow s = true := fun h => hr.ne ((loadsNow_iff s).mp h).1
    rw [if_neg fun hb => hr.ne ((atBoundary_iff_of s).mp hb), takenBy_tick_of_not_load hload]
    rfl
  · rw [if_pos ((atBoundary_iff_of s).mpr hr)]
    exact queueContent_symbolStep s hr

/-! ### The queue under a sequence of instructions -/

/-- A byte goes in exactly where there is a free slot (R170, R171). -/
theorem queueContent_after_push {s : State.Of c} (hs : QueueOk s) (b : Byte) :
    queueContent s ++ putBy (.push b) s = queueContent (after (.push b) s) := by
  rcases qcnt_lt_or_eq s with h | h
  · have hput : putBy (.push b) s = [b] := if_neg (by simp [queueFull, h.ne])
    rw [hput, after_push_accepted b s h]
    exact (queueContent_enqueue hs b h).symm
  · have hput : putBy (.push b) s = [] := if_pos (decide_eq_true h)
    rw [hput, after_push_rejected b s h]
    exact List.append_nil _

/-- Every instruction is first in, first out: only TICK takes a byte, from the front, and only PUSH puts one, at the back
(R177). -/
theorem queueContent_after {s : State.Of c} (hs : QueueOk s) (i : Instr) :
    queueContent s ++ putBy i s = takenBy i s ++ queueContent (after i s) := by
  cases i with
  | tick => exact (List.append_nil _).trans (queueContent_after_tick s)
  | push b => exact queueContent_after_push hs b
  | txstart => rw [after_txstart]; exact List.append_nil _
  | _ => exact List.append_nil _

/-- A symbol period keeps the queue: NEXTSYM moves QHEAD and QCNT together (R41, R114). -/
theorem QueueOk.symbolStep {s : State.Of c} (hs : QueueOk s) : QueueOk (symbolStep s) := by
  rw [symbolStep_eq]
  exact { index := by simpa using nextSym_queue s hs.index, memory := by simpa using hs.memory }

/-- Every instruction, a symbol by itself too, keeps the queue (R41). -/
theorem QueueOk.after {s : State.Of c} (hs : QueueOk s) (i : Instr) : QueueOk (after i s) := by
  cases i with
  | tick =>
    rcases ramp_below_or_boundary s with hr | hr
    · rw [after_tick_below s hr]
      exact { hs with }
    · have hstart : QueueOk ((emitPair s).setRamp ⟨0, c.symlen_pos⟩) := { hs with }
      rw [after_tick_boundary s hr]
      exact { hstart.symbolStep with }
  | push b =>
    rcases qcnt_lt_or_eq s with h | h
    · rw [after_push_accepted b s h, enqueue_eq b s h]
      exact { index := index_enqueue hs.index, memory := Memory.wf_write _ _ b hs.memory }
    · rw [after_push_rejected b s h]
      exact { hs with }
  | txstart => rw [after_txstart]; exact { hs with }
  | _ => exact { hs with }

/-- A sequence of instructions is first in, first out (R177). -/
theorem queueContent_afterAll (is : List Instr) {s : State.Of c} (hs : QueueOk s) :
    queueContent s ++ putByAll is s = takenByAll is s ++ queueContent (afterAll is s) := by
  induction is generalizing s with
  | nil => exact List.append_nil _
  | cons i is ih =>
    calc queueContent s ++ (putBy i s ++ putByAll is (after i s))
        = takenBy i s ++ (queueContent (after i s) ++ putByAll is (after i s)) := by
          rw [← List.append_assoc, queueContent_after hs i, List.append_assoc]
      _ = takenBy i s ++ takenByAll is (after i s) ++ queueContent (afterAll is (after i s)) := by
          rw [ih (hs.after i), List.append_assoc]

/-! ### Keying -/

/-- NEXTSYM writes KEY in ARM_STARTING only (R112). -/
theorem nextSym_key (s : State.Of c) : (nextSym s).2.key = if s.key = .starting then .running else s.key := by
  have hpop : (pop s).2.key = s.key := by rw [pop_frame]
  rcases nextSym_cases s with
    ⟨hk, hn⟩ | ⟨hk, hn⟩ | ⟨hk, -, -, hn⟩ | ⟨hk, -, -, hn⟩ | ⟨hk, -, -, hn⟩ | ⟨hk, -, -, hn⟩ <;>
    simp [hn, hk, hpop]

/-- KEY after a TICK at a symbol boundary (R112, R178). -/
theorem after_tick_boundary_key (s : State.Of c) (h : s.ramp.val + 1 = c.symlen) :
    (after .tick s).key = if s.key = .starting then .running else s.key := by
  rw [after_tick_boundary s h, symbolStep_eq]
  exact nextSym_key _

end Sys2Proof.Machine

namespace Sys2Proof.CharacterSource

open Sys2Proof.Machine

/-- Settles O54: `queueContent_afterAll`, an induction over the sequence. -/
theorem queueIsFifoInEveryConfiguration : Obligations.QueueIsFifoInEveryConfiguration :=
  fun _ is _ hindex hmemory => queueContent_afterAll is ⟨hindex, hmemory⟩

/-- Settles O51: the two cases of PUSH, with the new count in numbers. -/
theorem pushInEveryConfiguration : Obligations.PushInEveryConfiguration := by
  refine fun c b s => ⟨fun h => ?_, fun h => ?_⟩
  · rw [execOf_eq_after, after_push_accepted b s h, enqueue_eq b s h]
    rfl
  · rw [execOf_eq_after, after_push_rejected b s h]
    rfl

/-- Settles O25: this hardware is one configuration; a PUSH answers 1 in the first case of
`pushInEveryConfiguration` and 0 in the second, and QCNT is the length of the queue. -/
theorem queueIsFifo : Obligations.QueueIsFifo := by
  refine ⟨queueIsFifoInEveryConfiguration Config.hardware, fun b s => ⟨_, exec_eq_after (.push b) s, ?_⟩⟩
  rw [queueContent_length]
  rcases qcnt_lt_or_eq s with h | h
  · rw [after_push_accepted b s h, State.Of.respond_response]
    exact ⟨iff_of_true rfl h, iff_of_false (by decide) h.ne⟩
  · rw [after_push_rejected b s h, State.Of.respond_response]
    exact ⟨iff_of_false (by decide) h.not_lt, iff_of_true rfl h⟩

/-- Settles O28: TXSTART, TXSTOP and a boundary TICK by their rules, everything else by ownership (`after_key`). -/
theorem keyFollowsItsTable : Obligations.KeyFollowsItsTable := by
  refine fun i s => ⟨_, exec_eq_after i s, ?_, ?_, ?_, ?_, ?_, ?_, ?_⟩
  · rintro rfl hk
    rw [after_txstart, if_pos hk]
    rfl
  · rintro rfl hk
    rw [after_txstart, if_neg hk]
    rfl
  · rintro rfl
    rfl
  · rintro rfl hb hk
    rw [after_tick_boundary_key s hb, if_pos hk]
  · rintro rfl hb hk
    rw [after_tick_boundary_key s hb, if_neg hk]
  · rintro rfl hb
    exact after_key s nofun nofun fun _ => hb
  · exact fun hstart hstop htick => after_key s hstart hstop fun h => absurd h htick

/-- Settles O8: `stepBy_reserved` at the meanings of this hardware. -/
theorem reservedWordOnlySetsIllop : Obligations.ReservedWordOnlySetsIllop :=
  fun s _ _ h ha => stepBy_reserved exec s h ha

/-- Settles O23: the accepted case of `pushInEveryConfiguration` at QCAP 26, and the rules of the byte memory. -/
theorem pushAppendsWhenNotFull : Obligations.PushAppendsWhenNotFull := by
  refine fun b s h => ⟨?_, Memory.read_write_same _ _ b, fun a ha => Memory.read_write_other _ _ a b ha⟩
  rw [exec_eq_execOf]
  exact (pushInEveryConfiguration Config.hardware b s).1 h

/-- Settles O24: the rejected case of `pushInEveryConfiguration` at QCAP 26. -/
theorem pushRejectedWhenFull : Obligations.PushRejectedWhenFull := by
  intro b s h
  rw [exec_eq_execOf]
  exact (pushInEveryConfiguration Config.hardware b s).2 h

/-- Settles O26: `after_txstart`, which writes back the KEY it finds unless that is STOPPED. -/
theorem txstartAsksForCarrierOn : Obligations.TxstartAsksForCarrierOn := by
  refine fun s => ⟨fun hk => ?_, fun hk => ?_⟩
  · rw [exec_eq_after, after_txstart, if_pos hk]
    rfl
  · rw [exec_eq_after, after_txstart, if_neg hk]
    rfl

/-- Settles O27: `after_txstop`. -/
theorem txstopAsksForCarrierOff : Obligations.TxstopAsksForCarrierOff :=
  fun s => (exec_eq_after .txstop s).trans (congrArg Host.Outcome.next (after_txstop s))

/-- Settles O32: `after_rdstat`. -/
theorem rdstatReadsStatusOnly : Obligations.RdstatReadsStatusOnly :=
  fun s => (exec_eq_after .rdstat s).trans (congrArg Host.Outcome.next (after_rdstat s))

/-- Settles O34: `after_tickovr`, with the saturating increment in numbers. -/
theorem tickovrCountsAMissedTick : Obligations.TickovrCountsAMissedTick := by
  intro s
  rw [exec_eq_after, after_tickovr, recordError, satInc_eq_ofNat]
  rfl

end Sys2Proof.CharacterSource
end

section
/-! PROOF. The arithmetic of the overrun counter (spec/44_arithmetic_and_absent_classes.md R160 row 11, R162): the saturating
increment iterated over TICKOVRs, from every state and in every configuration. -/

namespace Sys2Proof.Machine

variable {c : Configuration}

@[simp] theorem overruns_zero (s : State.Of c) : overruns 0 s = s := rfl

/-- The first of n + 1 TICKOVRs. -/
theorem overruns_succ (n : Nat) (s : State.Of c) :
    overruns (n + 1) s = overruns n ((recordError .tickOverrun s).respond zeroResponse) := by
  rw [overruns, after_tickovr]

/-- Once OVRCNT has reached 65535 it stays there, so saturating at each TICKOVR is saturating once at the end (R162). -/
theorem overruns_ovrcnt_toNat (n : Nat) (s : State.Of c) :
    (overruns n s).ovrcnt.toNat = min (s.ovrcnt.toNat + n) 65535 := by
  induction n generalizing s with
  | zero => exact (Nat.min_eq_left (Nat.le_of_lt_succ s.ovrcnt.isLt)).symm
  | succ n ih =>
    rw [overruns_succ, ih, State.Of.respond_ovrcnt, recordError_tickOverrun_ovrcnt, satInc_toNat]
    omega

/-- TOVR is set by the first TICKOVR and cleared by none (R34, R175). -/
theorem overruns_tovr (n : Nat) (s : State.Of c) : (overruns n s).tovr = true ↔ s.tovr = true ∨ 0 < n := by
  induction n generalizing s with
  | zero => simp
  | succ n ih =>
    rw [overruns_succ, ih, State.Of.respond_tovr, recordError_tickOverrun_tovr]
    exact iff_of_true (Or.inl rfl) (Or.inr n.succ_pos)

end Sys2Proof.Machine

namespace Sys2Proof.Arithmetic

open Sys2Proof.Machine

/-- Settles O35: `overruns_ovrcnt_toNat` and `overruns_tovr`, each an induction over the TICKOVRs. -/
theorem overrunCounterSaturates : Obligations.OverrunCounterSaturates :=
  fun n s => ⟨overruns_ovrcnt_toNat n s, overruns_tovr n s⟩

end Sys2Proof.Arithmetic
end

section
/-! PROOF. Completion (spec/60_exceptions.md R190): no state stops a step or an instruction, and a word presented at the port
is served and answered within its step, in every configuration. -/

namespace Sys2Proof.Machine

variable {c : Configuration}

/-- Whatever is presented, or nothing, the step has a next state (R190). -/
theorem stepOf_completes (s : State.Of c) : ∃ t, stepOf c s = .next t := by
  rcases stepOf_cases s with ⟨-, hwait⟩ | ⟨_, -, hreset⟩ | ⟨_, _, _, -, -, hinstr⟩ | ⟨_, _, -, -, hreserved⟩
  · exact ⟨_, hwait⟩
  · exact ⟨_, hreset⟩
  · exact ⟨_, hinstr⟩
  · exact ⟨_, hreserved⟩

/-- An instruction that is a word of the port writes the response, in either case of PUSH (R84); a symbol does not. -/
theorem after_answers (s : State.Of c) {i : Instr} {w : OpWord} (hw : encode i = .cmd w) :
    ∃ r, (after i s).response = some r := by
  cases i with
  | tick => rw [after_tick]; exact ⟨_, State.Of.respond_response _ _⟩
  | push b =>
    rcases qcnt_lt_or_eq s with h | h
    · rw [after_push_accepted b s h]; exact ⟨1, State.Of.respond_response _ _⟩
    · rw [after_push_rejected b s h]; exact ⟨0, State.Of.respond_response _ _⟩
  | txstart => rw [after_txstart]; exact ⟨zeroResponse, State.Of.respond_response _ _⟩
  | txstop => rw [after_txstop]; exact ⟨zeroResponse, State.Of.respond_response _ _⟩
  | rdstat => rw [after_rdstat]; exact ⟨statusWord s, State.Of.respond_response _ _⟩
  | tickovr => rw [after_tickovr]; exact ⟨zeroResponse, State.Of.respond_response _ _⟩
  | nochg | rev180 | coff | con => cases hw

/-- A word presented, reserved or not, is taken from the port and answered in the same step (R84, R190). -/
theorem stepOf_word_answers (s : State.Of c) {w : OpWord} {rest : List Input} (h : s.inputs = .word w :: rest) :
    ∃ t r, stepOf c s = .next t ∧ t.response = some r ∧ t.inputs = rest := by
  cases hd : decode (.cmd w) with
  | instr i =>
    obtain ⟨r, hr⟩ := after_answers (s.setInputs rest) (encode_of_decode_cmd hd)
    have hstep : stepOf c s = .next (after i (s.setInputs rest)) :=
      (stepBy_instr execOf s h hd).trans (execOf_eq_after i _)
    exact ⟨_, r, hstep, hr, (after_illop_inputs (s.setInputs rest) i).2⟩
  | reserved v =>
    have hstep : stepOf c s = .next (reservedOp w (s.setInputs rest)) :=
      stepBy_reserved execOf s h (assigned_eq_false_of_decode_reserved hd)
    exact ⟨_, zeroResponse, hstep, State.Of.respond_response _ _, rfl⟩

end Sys2Proof.Machine

namespace Sys2Proof.Exceptions

open Sys2Proof.Machine

/-- Settles O47: `stepOf_completes` for the steps, `execOf_eq_after` for the instructions. -/
theorem everyConfigurationCompletes : Obligations.EveryConfigurationCompletes :=
  fun _ => ⟨stepOf_completes, fun i s => ⟨after i s, execOf_eq_after i s⟩⟩

/-- Settles O10: this hardware is one configuration (`step_eq_stepOf`, `exec_eq_after`), and `stepOf_word_answers` gives the
answer. -/
theorem everyStepCompletes : Obligations.EveryStepCompletes := by
  refine ⟨fun s => ?_, fun i s => ⟨after i s, exec_eq_after i s⟩, fun s w rest h => ?_⟩
  · rw [step_eq_stepOf]
    exact stepOf_completes s
  · rw [step_eq_stepOf]
    exact stepOf_word_answers s h

end Sys2Proof.Exceptions
end

section
/-! PROOF. Reset, the end of a transmission and runs (spec/70_reset_and_hazards.md R210, R223, R234): the step of a reset
event, the decay and the silence after a key-off, and the answers to a run of operation words, in every configuration. -/

namespace Sys2Proof.Machine

variable {c : Configuration}

/-! ### The reset event -/

/-- The step when a reset event comes, which runs no instruction (R210). -/
theorem stepBy_reset (run : Instr → State.Of c → Host.Outcome (State.Of c) Fault Refusal) (s : State.Of c)
    {rest : List Input} (h : s.inputs = .reset :: rest) : stepBy run s = .next (resetEvent (s.setInputs rest)) := by
  simp only [stepBy, h]

/-! ### Key-off -/

/-- The transmission is stopped, the carrier is off and the held segments come to rest at 0: the state in which the symbol
period after a COFF is sent, whatever the carrier was doing (R137, R223). -/
structure Decaying (s : State.Of c) : Prop where
  key : s.key = .stopped
  phase : s.phase = .phoff
  endI : segEnd s.segi = 0
  endQ : segEnd s.segq = 0

/-- A block that is STOPPED sends COFF at its next boundary, from every phase (R111, R137). -/
theorem decaying_symbolStep {s : State.Of c} (hk : s.key = .stopped) : Decaying (symbolStep s) := by
  obtain ⟨hendI, hendQ⟩ := segEnd_transTable .coff s.phase
  have hphase : (transTable .coff s.phase).2.2 = .phoff := by cases s.phase <;> rfl
  rw [hphase] at hendI hendQ
  rw [symbolStep_eq, nextSym_stopped hk]
  exact ⟨hk, hphase, hendI, hendQ⟩

/-- The boundary that ends the decay sends COFF again, now with the carrier off, and selects Z (R131, R140). -/
theorem Decaying.idle_symbolStep {s : State.Of c} (h : Decaying s) : Idle (symbolStep s) := by
  rw [symbolStep_eq, nextSym_stopped h.key, h.phase]
  exact ⟨h.key, rfl, rfl, rfl⟩

/-- The last pair of the decay is (0, 0) (R94, R223). -/
theorem Decaying.after_tick_last_outs_zero {s : State.Of c} (h : Decaying s) (hr : s.ramp.val + 1 = c.symlen) :
    (after .tick s).iout = 0#c.sampw ∧ (after .tick s).qout = 0#c.sampw := by
  obtain ⟨hi, hq⟩ := after_tick_outs s
  rw [sample_last _ _ hr, h.endI, Int.mul_zero] at hi
  rw [sample_last _ _ hr, h.endQ, Int.mul_zero] at hq
  exact ⟨hi, hq⟩

section Stopped

variable {n : Nat} {s : State.Of c} (hk : s.key = .stopped)
include hk

/-- Once one boundary has been crossed, and up to the next one, a STOPPED block is in its decay (R223). -/
theorem decaying_ticks (h : boundaries n s = 1) : Decaying (ticks n s) := by
  rw [ticks_eq_symbolSteps, h]
  exact { decaying_symbolStep hk with }

/-- Once two boundaries have been crossed, a STOPPED block is idle (R223). -/
theorem idle_ticks (h : 2 ≤ boundaries n s) : Idle (ticks n s) := by
  have hidle : Idle (symbolSteps 2 s) := (decaying_symbolStep hk).idle_symbolStep
  obtain ⟨k, hcount⟩ := Nat.exists_eq_add_of_le h
  rw [ticks_eq_symbolSteps, hcount, symbolSteps_add, hidle.symbolSteps_eq_self]
  exact { hidle with }

/-- The pair that follows n TICKs is (0, 0) where it is the last of the decay or comes after it (R223). -/
theorem outs_zero_after_keyOff (h : 2 * c.symlen ≤ s.ramp.val + n + 1) :
    (after .tick (ticks n s)).iout = 0#c.sampw ∧ (after .tick (ticks n s)).qout = 0#c.sampw := by
  have hpos := c.symlen_pos
  rcases h.lt_or_eq with hlater | hlast
  · refine (idle_ticks hk ?_).after_tick_outs_zero
    rw [boundaries_eq, Nat.le_div_iff_mul_le hpos]
    exact Nat.le_of_lt_succ hlater
  · have hoffset : s.ramp.val + n = c.symlen * 1 + (c.symlen - 1) := by omega
    have hlt : c.symlen - 1 < c.symlen := Nat.sub_lt hpos Nat.one_pos
    refine (decaying_ticks hk ?_).after_tick_last_outs_zero ?_
    · rw [boundaries_eq, hoffset, Nat.mul_add_div hpos, Nat.div_eq_of_lt hlt]
    · rw [ticks_ramp, hoffset, Nat.mul_add_mod, Nat.mod_eq_of_lt hlt, Nat.sub_add_cancel hpos]

end Stopped

/-! ### Runs -/

/-- A word that is served is answered, whatever the word and the state (R84, R190). -/
theorem serveWord_answers (w : OpWord) (s : State.Of c) : (serveWord w s).response.isSome = true := by
  obtain ⟨t, r, hstep, hresponse, -⟩ := stepOf_word_answers (s.present w) rfl
  rw [serveWord, hstep, hresponse, Option.isSome_some]

/-- A run yields as many responses as it has words (R234). -/
theorem runWords_length (ws : List OpWord) (s : State.Of c) : (runWords ws s).1.length = ws.length := by
  induction ws generalizing s with
  | nil => rfl
  | cons w ws ih => rw [runWords, List.length_cons, ih, List.length_cons]

/-- Each of them is a response word (R234). -/
theorem runWords_answers (ws : List OpWord) (s : State.Of c) : ∀ r ∈ (runWords ws s).1, r.isSome = true := by
  induction ws generalizing s with
  | nil => exact List.forall_mem_nil _
  | cons w ws ih => exact List.forall_mem_cons.mpr ⟨serveWord_answers w s, ih _⟩

end Sys2Proof.Machine

namespace Sys2Proof.ResetAndHazards

open Sys2Proof.Machine

/-- Settles O58: the pair of the last TICK by `outs_zero_after_keyOff`, and the phase because two boundaries have been
crossed. -/
theorem silenceAfterKeyOffInEveryConfiguration : Obligations.SilenceAfterKeyOffInEveryConfiguration := by
  intro c n s hk hn
  have hramp := s.ramp.isLt
  obtain ⟨m, rfl⟩ : ∃ m, n = m + 1 := Nat.exists_eq_add_one.mpr (by omega)
  have hcount : 2 ≤ boundaries (m + 1) s := by
    rw [boundaries_eq, Nat.le_div_iff_mul_le c.symlen_pos, Nat.add_comm]
    exact hn
  obtain ⟨hi, hq⟩ := outs_zero_after_keyOff (n := m) hk (by omega)
  rw [← ticks_succ_eq_after] at hi hq
  exact ⟨hi, hq, (idle_ticks hk hcount).phase⟩

/-- Settles O30: this hardware is one configuration. -/
theorem silenceAfterKeyOff : Obligations.SilenceAfterKeyOff :=
  silenceAfterKeyOffInEveryConfiguration Config.hardware

/-- Settles O11: `runWords_length` and `runWords_answers`, each an induction over the words. -/
theorem runAnswersEveryWord : Obligations.RunAnswersEveryWord :=
  fun ws s => ⟨runWords_length ws s, runWords_answers ws s⟩

/-- Settles O6: `stepBy_reset` at the meanings of this hardware. -/
theorem resetEventRestoresEveryRegister : Obligations.ResetEventRestoresEveryRegister :=
  fun s _ h => stepBy_reset exec s h

end Sys2Proof.ResetAndHazards
end
